-- ==== Sys2Proof/Word.lean ====
section
/-! DEFINITION. The word types of the machine (00_scope.md R9: every value is an unsigned integer of a stated
width). What the spec adds, masks or shifts is a bit vector; register, key and row numbers are never computed
with as words, so they are bounded numbers. -/

namespace Sys2Proof

/-- u8: a V register, a timer, a memory byte. -/
abbrev Byte := BitVec 8

/-- u16: an instruction word, pc, I, a stack entry. -/
abbrev Word := BitVec 16

/-- u12: the address field nnn of 30_encoding.md R41. -/
abbrev Addr12 := BitVec 12

/-- The number of a V register, 0 to 15 (10_state.md R14). -/
abbrev RegIdx := Fin 16

/-- The number of a key, 0 to 15 (10_state.md R24). -/
abbrev KeyIdx := Fin 16

/-- VF is register V15 (10_state.md R16). -/
abbrev VF : RegIdx := 15

end Sys2Proof
end

