-- ==== Sys2Proof/Config.lean ====
section
/-! DEFINITION. What is fixed for the block (00_scope.md R6), its open parameters with the spec's values (R7), and
its one free value, RAND's draw (42_alu.md R83). -/

namespace Sys2Proof

namespace Config

/-- MEM_SIZE (R6). -/
abbrev memSize : Nat := 4096
/-- PROG_BASE: where `load` puts the ROM, and the reset value of pc (R6). -/
abbrev progBase : Nat := 0x200
/-- FONT_BASE (R6). -/
abbrev fontBase : Nat := 0x000
/-- GLYPH_BYTES (R6). -/
abbrev glyphBytes : Nat := 5
/-- MAX_ROM = 4096 - 0x200 (R6). -/
abbrev maxRom : Nat := memSize - progBase
/-- DISPLAY_W (R6; the orientation is decision D18, log 11). -/
abbrev displayW : Nat := 64
/-- DISPLAY_H (R6; the orientation is decision D18, log 11). -/
abbrev displayH : Nat := 32
/-- STACK_DEPTH (R6). -/
abbrev stackDepth : Nat := 16
/-- INSN_BYTES (R6). -/
abbrev insnBytes : Nat := 2

end Config

/-- SHIFT_SRC (R7, 42_alu.md R71): the register that RSHIFT and LSHIFT read. -/
inductive ShiftSrc where
  | vx
  | vy
  deriving DecidableEq, Repr

/-- LOAD_POLICY (R7, 40_tick_driver.md R53): what `load` does with a ROM of more than 3584 bytes. -/
inductive LoadPolicy where
  | truncate
  | reject
  deriving DecidableEq, Repr

/-- FONT: the 80 bytes that reset writes at 0x000 to 0x04F (R7, 20_memory.md R35). -/
abbrev Font := Vector Byte 80

namespace Config

/-- Glyphs 0 to 7 of the table in 20_memory.md R35 (general knowledge, G1; PRESUMED, log 10). -/
def fontLow : List Byte :=
  [0xF0, 0x90, 0x90, 0x90, 0xF0] ++ [0x20, 0x60, 0x20, 0x20, 0x70] ++
  [0xF0, 0x10, 0xF0, 0x80, 0xF0] ++ [0xF0, 0x10, 0xF0, 0x10, 0xF0] ++
  [0x90, 0x90, 0xF0, 0x10, 0x10] ++ [0xF0, 0x80, 0xF0, 0x10, 0xF0] ++
  [0xF0, 0x80, 0xF0, 0x90, 0xF0] ++ [0xF0, 0x10, 0x20, 0x40, 0x40]

/-- Glyphs 8 to F of the table in 20_memory.md R35 (general knowledge, G1; PRESUMED, log 10). -/
def fontHigh : List Byte :=
  [0xF0, 0x90, 0xF0, 0x90, 0xF0] ++ [0xF0, 0x90, 0xF0, 0x10, 0xF0] ++
  [0xF0, 0x90, 0xF0, 0x90, 0x90] ++ [0xE0, 0x90, 0xE0, 0x90, 0xE0] ++
  [0xF0, 0x80, 0x80, 0x80, 0xF0] ++ [0xE0, 0x90, 0x90, 0x90, 0xE0] ++
  [0xF0, 0x80, 0xF0, 0x80, 0xF0] ++ [0xF0, 0x80, 0xF0, 0x80, 0x80]

/-- The spec's default FONT as a list of bytes. -/
def fontBytes : List Byte := fontLow ++ fontHigh

/-- The spec's default FONT (R7, 20_memory.md R35). -/
def font : Font := ⟨fontBytes.toArray, rfl⟩

/-- The value of RAND's `k`-th draw. 42_alu.md R83: "an 8-bit value that the spec does not constrain", with no seed
and no law between draws. A FREE VALUE: no body, so nothing can be proved of it (DESIGN CHOICE of the form, log 3). -/
opaque freeDraw : Nat → Byte

end Config

/-- The open parameters of R7 that are settings of the block. They never change while the machine runs. -/
structure Params where
  shiftSrc : ShiftSrc
  font : Font
  loadPolicy : LoadPolicy
  deriving DecidableEq, Repr

/-- The spec's values (R7, third column). -/
def Params.spec : Params :=
  { shiftSrc := .vx, font := Config.font, loadPolicy := .truncate }

end Sys2Proof
end

