-- ==== Sys2Proof/Syntax.lean ====
section
/-! DEFINITION. The instruction set: one constructor per row of spec/opcode_table.json (30_encoding.md R42, R44), its
operands the fields of R41, and the assembler syntax of R47. -/

namespace Sys2Proof

/-- The 35 instructions. Operand order as in 30_encoding.md R47: x, y, then the immediate. The range of every operand
is carried by its type, so no ill-formed instruction can be built. -/
inductive Instr where
  | nop
  | cls
  | ret
  | jmp (nnn : Addr12)
  | call (nnn : Addr12)
  | skipEqNn (x : RegIdx) (nn : Byte)
  | skipNeqNn (x : RegIdx) (nn : Byte)
  | skipEqVy (x y : RegIdx)
  | setNn (x : RegIdx) (nn : Byte)
  | addNn (x : RegIdx) (nn : Byte)
  | setVy (x y : RegIdx)
  | or (x y : RegIdx)
  | and (x y : RegIdx)
  | xor (x y : RegIdx)
  | addVy (x y : RegIdx)
  | subVy (x y : RegIdx)
  | rshift (x y : RegIdx)
  | rsubVy (x y : RegIdx)
  | lshift (x y : RegIdx)
  | skipNeqVy (x y : RegIdx)
  | setI (nnn : Addr12)
  | jmpV0 (nnn : Addr12)
  | rand (x : RegIdx) (nn : Byte)
  | draw (x y : RegIdx) (n : Fin 16)
  | skipKey (x : RegIdx)
  | skipNkey (x : RegIdx)
  | getDt (x : RegIdx)
  | waitKey (x : RegIdx)
  | setDt (x : RegIdx)
  | setSt (x : RegIdx)
  | addI (x : RegIdx)
  | setIFont (x : RegIdx)
  | bcd (x : RegIdx)
  | store (x : RegIdx)
  | load (x : RegIdx)
  deriving DecidableEq, Repr

/-- The name of each instruction, as spec/opcode_table.json spells it. -/
def Instr.mnemonic : Instr → String
  | .nop => "NOP" | .cls => "CLS" | .ret => "RET"
  | .jmp _ => "JMP" | .call _ => "CALL"
  | .skipEqNn _ _ => "SKIP_EQ_NN" | .skipNeqNn _ _ => "SKIP_NEQ_NN" | .skipEqVy _ _ => "SKIP_EQ_VY"
  | .setNn _ _ => "SET_NN" | .addNn _ _ => "ADD_NN" | .setVy _ _ => "SET_VY"
  | .or _ _ => "OR" | .and _ _ => "AND" | .xor _ _ => "XOR"
  | .addVy _ _ => "ADD_VY" | .subVy _ _ => "SUB_VY" | .rshift _ _ => "RSHIFT"
  | .rsubVy _ _ => "RSUB_VY" | .lshift _ _ => "LSHIFT" | .skipNeqVy _ _ => "SKIP_NEQ_VY"
  | .setI _ => "SET_I" | .jmpV0 _ => "JMP_V0" | .rand _ _ => "RAND" | .draw _ _ _ => "DRAW"
  | .skipKey _ => "SKIP_KEY" | .skipNkey _ => "SKIP_NKEY" | .getDt _ => "GET_DT"
  | .waitKey _ => "WAIT_KEY" | .setDt _ => "SET_DT" | .setSt _ => "SET_ST" | .addI _ => "ADD_I"
  | .setIFont _ => "SET_I_FONT" | .bcd _ => "BCD" | .store _ => "STORE" | .load _ => "LOAD"

namespace Assembly

/-- One upper-case hexadecimal digit. -/
def hexDigit (d : Fin 16) : Char :=
  ['0', '1', '2', '3', '4', '5', '6', '7', '8', '9', 'A', 'B', 'C', 'D', 'E', 'F'].getD d.val '0'

/-- The last `k` hexadecimal digits of a number, most significant first. -/
def hexDigits (v : Nat) : (k : Nat) → List Char
  | 0 => []
  | k + 1 => hexDigits (v / 16) k ++ [hexDigit (Fin.ofNat 16 v)]

/-- A register operand: `V` and one hexadecimal digit. -/
def reg (x : RegIdx) : List Char := ['V', hexDigit x]

/-- An 8-bit immediate, `0x..`. -/
def byte (nn : Byte) : List Char := ['0', 'x'] ++ hexDigits nn.toNat 2

/-- A 12-bit immediate, `0x...`. -/
def addr (nnn : Addr12) : List Char := ['0', 'x'] ++ hexDigits nnn.toNat 3

/-- A row count. R47 allows decimal or hexadecimal; the model writes decimal (DESIGN CHOICE, log 23). -/
def count (n : Fin 16) : List Char :=
  if n.val < 10 then [hexDigit n] else ['1', hexDigit (Fin.ofNat 16 (n.val - 10))]

/-- Operands separated by a comma and a space. -/
def commas : List (List Char) → List Char
  | [] => []
  | [a] => a
  | a :: b :: rest => a ++ [',', ' '] ++ commas (b :: rest)

/-- The operands of an instruction, in the order of R47. -/
def operands : Instr → List (List Char)
  | .nop | .cls | .ret => []
  | .jmp nnn | .call nnn | .setI nnn | .jmpV0 nnn => [addr nnn]
  | .skipEqNn x nn | .skipNeqNn x nn | .setNn x nn | .addNn x nn | .rand x nn => [reg x, byte nn]
  | .skipEqVy x y | .skipNeqVy x y | .setVy x y | .or x y | .and x y | .xor x y | .addVy x y | .subVy x y
  | .rshift x y | .rsubVy x y | .lshift x y => [reg x, reg y]
  | .draw x y n => [reg x, reg y, count n]
  | .skipKey x | .skipNkey x | .getDt x | .waitKey x | .setDt x | .setSt x | .addI x | .setIFont x | .bcd x
  | .store x | .load x => [reg x]

end Assembly

/-- The assembler text of an instruction (30_encoding.md R47), as characters. -/
def Instr.assembly (i : Instr) : List Char :=
  match Assembly.operands i with
  | [] => i.mnemonic.toList
  | ops => i.mnemonic.toList ++ [' '] ++ Assembly.commas ops

end Sys2Proof
end

