-- ==== Sys2Proof/WellFormed.lean ====
section
/-! DEFINITION. Well-formed inputs. An `Instr` is well formed by construction: every operand's range (30_encoding.md
R41) is carried by its type. What can be ill formed is what comes from outside: an instruction word, which is
supported only when it matches a row of the opcode map (R44, R45), and a ROM, which fits only up to 3584 bytes
(40_tick_driver.md R53). Both checks are given here. -/

namespace Sys2Proof

/-- A row of the opcode map, R44. -/
structure OpcodeRow where
  mnemonic : String
  mtch : Word
  mask : Word
  deriving DecidableEq, Repr

/-- R44: a pair selects a word when `w & mask = match`. -/
def OpcodeRow.selects (r : OpcodeRow) (w : Word) : Bool := w &&& r.mask == r.mtch

/-- The rows of R44 with d1 = 0 to 7. -/
def opcodeRowsLow : List OpcodeRow :=
  [⟨"NOP", 0x0000, 0xFFFF⟩, ⟨"CLS", 0x00E0, 0xFFFF⟩, ⟨"RET", 0x00EE, 0xFFFF⟩,
   ⟨"JMP", 0x1000, 0xF000⟩, ⟨"CALL", 0x2000, 0xF000⟩, ⟨"SKIP_EQ_NN", 0x3000, 0xF000⟩,
   ⟨"SKIP_NEQ_NN", 0x4000, 0xF000⟩, ⟨"SKIP_EQ_VY", 0x5000, 0xF00F⟩, ⟨"SET_NN", 0x6000, 0xF000⟩,
   ⟨"ADD_NN", 0x7000, 0xF000⟩]

/-- The rows of R44 with d1 = 8 to D. -/
def opcodeRowsMid : List OpcodeRow :=
  [⟨"SET_VY", 0x8000, 0xF00F⟩, ⟨"OR", 0x8001, 0xF00F⟩, ⟨"AND", 0x8002, 0xF00F⟩, ⟨"XOR", 0x8003, 0xF00F⟩,
   ⟨"ADD_VY", 0x8004, 0xF00F⟩, ⟨"SUB_VY", 0x8005, 0xF00F⟩, ⟨"RSHIFT", 0x8006, 0xF00F⟩,
   ⟨"RSUB_VY", 0x8007, 0xF00F⟩, ⟨"LSHIFT", 0x8008, 0xF00F⟩, ⟨"SKIP_NEQ_VY", 0x9000, 0xF00F⟩,
   ⟨"SET_I", 0xA000, 0xF000⟩, ⟨"JMP_V0", 0xB000, 0xF000⟩, ⟨"RAND", 0xC000, 0xF000⟩, ⟨"DRAW", 0xD000, 0xF000⟩]

/-- The rows of R44 with d1 = E and F. -/
def opcodeRowsHigh : List OpcodeRow :=
  [⟨"SKIP_KEY", 0xE09E, 0xF0FF⟩, ⟨"SKIP_NKEY", 0xE0A1, 0xF0FF⟩, ⟨"GET_DT", 0xF007, 0xF0FF⟩,
   ⟨"WAIT_KEY", 0xF00A, 0xF0FF⟩, ⟨"SET_DT", 0xF015, 0xF0FF⟩, ⟨"SET_ST", 0xF018, 0xF0FF⟩,
   ⟨"ADD_I", 0xF01E, 0xF0FF⟩, ⟨"SET_I_FONT", 0xF029, 0xF0FF⟩, ⟨"BCD", 0xF033, 0xF0FF⟩,
   ⟨"STORE", 0xF055, 0xF0FF⟩, ⟨"LOAD", 0xF065, 0xF0FF⟩]

/-- The opcode map of R44, row by row in its order. -/
def opcodeRows : List OpcodeRow := opcodeRowsLow ++ opcodeRowsMid ++ opcodeRowsHigh

/-- A word is supported when some row selects it; every other word is an `UnsupportedOpcode` (R45). -/
def supportedWord (w : Word) : Bool := opcodeRows.any fun r => r.selects w

/-- A ROM that `load` copies whole (R53). -/
def romFits (rom : List Byte) : Bool := rom.length ≤ Config.maxRom

end Sys2Proof
end

