-- ==== Sys2Proof/Decode.lean ====
section
/-! DEFINITION. The decoder, written nibble by nibble as 30_encoding.md R41 to R44 give it, total on every word and on
every string of bytes, and the encoder, written from the formats of R42. -/

namespace Sys2Proof

/-- d1 = w[15:12] (00_scope.md R8). -/
def fieldD1 (w : Word) : BitVec 4 := w.extractLsb' 12 4
/-- d2 = w[11:8]. -/
def fieldD2 (w : Word) : BitVec 4 := w.extractLsb' 8 4
/-- d3 = w[7:4]. -/
def fieldD3 (w : Word) : BitVec 4 := w.extractLsb' 4 4
/-- d4 = w[3:0]. -/
def fieldD4 (w : Word) : BitVec 4 := w.extractLsb' 0 4

/-- The register index x, from d2 (R41). -/
def fieldX (w : Word) : RegIdx := (fieldD2 w).toFin
/-- The register index y, from d3 (R41). -/
def fieldY (w : Word) : RegIdx := (fieldD3 w).toFin
/-- The 4-bit immediate n, from d4 (R41). -/
def fieldN (w : Word) : Fin 16 := (fieldD4 w).toFin
/-- The 8-bit immediate nn, the low byte (R41). -/
def fieldNn (w : Word) : Byte := w.extractLsb' 0 8
/-- The 12-bit address nnn, the low 12 bits (R41). -/
def fieldNnn (w : Word) : Addr12 := w.extractLsb' 0 12

/-- d1 = 0: only the three words 0000, 00E0 and 00EE (R44). -/
def decode0 (w : Word) : Option Instr :=
  if w = 0x0000#16 then some .nop
  else if w = 0x00E0#16 then some .cls
  else if w = 0x00EE#16 then some .ret
  else none

/-- d1 = 8: selected by d4 (R44). LSHIFT is d4 = 8 and d4 = E is unsupported (R43; log 22). -/
def decode8 (w : Word) : Option Instr :=
  match (fieldD4 w).toNat with
  | 0x0 => some (.setVy (fieldX w) (fieldY w))
  | 0x1 => some (.or (fieldX w) (fieldY w))
  | 0x2 => some (.and (fieldX w) (fieldY w))
  | 0x3 => some (.xor (fieldX w) (fieldY w))
  | 0x4 => some (.addVy (fieldX w) (fieldY w))
  | 0x5 => some (.subVy (fieldX w) (fieldY w))
  | 0x6 => some (.rshift (fieldX w) (fieldY w))
  | 0x7 => some (.rsubVy (fieldX w) (fieldY w))
  | 0x8 => some (.lshift (fieldX w) (fieldY w))
  | _ => none

/-- d1 = E: selected by d3 d4 (R44). -/
def decodeE (w : Word) : Option Instr :=
  match (fieldNn w).toNat with
  | 0x9E => some (.skipKey (fieldX w))
  | 0xA1 => some (.skipNkey (fieldX w))
  | _ => none

/-- d1 = F: selected by d3 d4 (R44). -/
def decodeF (w : Word) : Option Instr :=
  match (fieldNn w).toNat with
  | 0x07 => some (.getDt (fieldX w))
  | 0x0A => some (.waitKey (fieldX w))
  | 0x15 => some (.setDt (fieldX w))
  | 0x18 => some (.setSt (fieldX w))
  | 0x1E => some (.addI (fieldX w))
  | 0x29 => some (.setIFont (fieldX w))
  | 0x33 => some (.bcd (fieldX w))
  | 0x55 => some (.store (fieldX w))
  | 0x65 => some (.load (fieldX w))
  | _ => none

/-- The decoder (R44): the instruction a word stands for, or none when the word matches no row (R45). -/
def decodeWord (w : Word) : Option Instr :=
  match (fieldD1 w).toNat with
  | 0x0 => decode0 w
  | 0x1 => some (.jmp (fieldNnn w))
  | 0x2 => some (.call (fieldNnn w))
  | 0x3 => some (.skipEqNn (fieldX w) (fieldNn w))
  | 0x4 => some (.skipNeqNn (fieldX w) (fieldNn w))
  | 0x5 => if fieldD4 w = 0x0#4 then some (.skipEqVy (fieldX w) (fieldY w)) else none
  | 0x6 => some (.setNn (fieldX w) (fieldNn w))
  | 0x7 => some (.addNn (fieldX w) (fieldNn w))
  | 0x8 => decode8 w
  | 0x9 => if fieldD4 w = 0x0#4 then some (.skipNeqVy (fieldX w) (fieldY w)) else none
  | 0xA => some (.setI (fieldNnn w))
  | 0xB => some (.jmpV0 (fieldNnn w))
  | 0xC => some (.rand (fieldX w) (fieldNn w))
  | 0xD => some (.draw (fieldX w) (fieldY w) (fieldN w))
  | 0xE => decodeE w
  | 0xF => decodeF w
  | _ => none

/-- Two bytes as the fetch joins them: the first is bits 15 to 8 (20_memory.md R31). -/
def joinBytes (hi lo : Byte) : Word := hi ++ lo

/-- Why a string of bytes is no instruction. -/
inductive DecodeError where
  /-- The word matches no row of R44 (R45). -/
  | unsupportedOpcode (w : Word)
  /-- Fewer than the two bytes that every instruction has (R40). The machine never meets this: its memory wraps. -/
  | truncated
  deriving DecidableEq, Repr

/-- The decoder on bytes: the instruction and the bytes after it, exactly two bytes taken (R40), or the reason. -/
def decodeBytes : List Byte → Except DecodeError (Instr × List Byte)
  | hi :: lo :: rest =>
    match decodeWord (joinBytes hi lo) with
    | some i => .ok (i, rest)
    | none => .error (.unsupportedOpcode (joinBytes hi lo))
  | _ => .error .truncated

/-- A register number as the nibble that encodes it. -/
def nibble (x : Fin 16) : BitVec 4 := BitVec.ofFin x

/-- Format `NNN` (R42): d1 nnn. -/
def encodeNnn (d1 : BitVec 4) (nnn : Addr12) : Word := d1 ++ nnn
/-- Format `XNN` (R42): d1 x nn. -/
def encodeXnn (d1 : BitVec 4) (x : RegIdx) (nn : Byte) : Word := (d1 ++ nibble x) ++ nn
/-- Formats `XY` and `XYN` (R42): d1 x y d4. -/
def encodeXyn (d1 : BitVec 4) (x y : RegIdx) (d4 : BitVec 4) : Word := ((d1 ++ nibble x) ++ nibble y) ++ d4
/-- Format `X` (R42): d1 x d3 d4, the last two given as one byte. -/
def encodeX (d1 : BitVec 4) (x : RegIdx) (low : Byte) : Word := (d1 ++ nibble x) ++ low

/-- The encoder: the word of an instruction, by its format and pattern in R42. -/
def encode : Instr → Word
  | .nop => 0x0000#16
  | .cls => 0x00E0#16
  | .ret => 0x00EE#16
  | .jmp nnn => encodeNnn 0x1#4 nnn
  | .call nnn => encodeNnn 0x2#4 nnn
  | .skipEqNn x nn => encodeXnn 0x3#4 x nn
  | .skipNeqNn x nn => encodeXnn 0x4#4 x nn
  | .skipEqVy x y => encodeXyn 0x5#4 x y 0x0#4
  | .setNn x nn => encodeXnn 0x6#4 x nn
  | .addNn x nn => encodeXnn 0x7#4 x nn
  | .setVy x y => encodeXyn 0x8#4 x y 0x0#4
  | .or x y => encodeXyn 0x8#4 x y 0x1#4
  | .and x y => encodeXyn 0x8#4 x y 0x2#4
  | .xor x y => encodeXyn 0x8#4 x y 0x3#4
  | .addVy x y => encodeXyn 0x8#4 x y 0x4#4
  | .subVy x y => encodeXyn 0x8#4 x y 0x5#4
  | .rshift x y => encodeXyn 0x8#4 x y 0x6#4
  | .rsubVy x y => encodeXyn 0x8#4 x y 0x7#4
  | .lshift x y => encodeXyn 0x8#4 x y 0x8#4
  | .skipNeqVy x y => encodeXyn 0x9#4 x y 0x0#4
  | .setI nnn => encodeNnn 0xA#4 nnn
  | .jmpV0 nnn => encodeNnn 0xB#4 nnn
  | .rand x nn => encodeXnn 0xC#4 x nn
  | .draw x y n => encodeXyn 0xD#4 x y (nibble n)
  | .skipKey x => encodeX 0xE#4 x 0x9E#8
  | .skipNkey x => encodeX 0xE#4 x 0xA1#8
  | .getDt x => encodeX 0xF#4 x 0x07#8
  | .waitKey x => encodeX 0xF#4 x 0x0A#8
  | .setDt x => encodeX 0xF#4 x 0x15#8
  | .setSt x => encodeX 0xF#4 x 0x18#8
  | .addI x => encodeX 0xF#4 x 0x1E#8
  | .setIFont x => encodeX 0xF#4 x 0x29#8
  | .bcd x => encodeX 0xF#4 x 0x33#8
  | .store x => encodeX 0xF#4 x 0x55#8
  | .load x => encodeX 0xF#4 x 0x65#8

/-- The word's bytes in the order they lie in memory: high byte first (20_memory.md R31). -/
def wordBytes (w : Word) : List Byte := [w.extractLsb' 8 8, w.extractLsb' 0 8]

/-- The bytes of an instruction. -/
def encodeBytes (i : Instr) : List Byte := wordBytes (encode i)

/-- The instruction's word from the opcode table's numbering: one 16-bit word, bit 0 its least significant bit, every
bit from `nbits` up zero. -/
def tableWord (nbits w : Nat) : Word := BitVec.ofNat 16 (w % 2 ^ nbits)

/-- The instruction this decoder reads from a word of spec/opcode_table.json, laid out in memory's byte order. -/
def decodeTableWord (nbits w : Nat) : Option Instr :=
  match decodeBytes (wordBytes (tableWord nbits w)) with
  | .ok (i, _) => some i
  | .error _ => none

end Sys2Proof
end

