-- ==== Sys2Proof/Machine/State.lean ====
section
/-! DEFINITION. The machine's state: the record of 10_state.md R12 and, beside it, two fields of the model's own
(`params`, `drawCount`); the reasons a step can stop; the state after reset. -/

namespace Sys2Proof.Machine

/-- `mem`: cells of (address, byte), addresses below 4096 and strictly rising, no cell equal to what an unlisted
address reads as (20_memory.md R28; the form is `Memory.wf` in Ops.lean, log 20). -/
abbrev Memory := List Host.Cell

/-- `fb`: 32 rows of 64 pixels, row 0 at the top, column 0 at the left, true = lit (10_state.md R23, log 11). -/
abbrev Framebuffer := Vector (Vector Bool 64) 32

/-- The Machine State (10_state.md R12). -/
structure State where
  /-- `mem`, 4096 bytes (R28). -/
  mem : Memory
  /-- V0 to VF (R14); VF is `v` at 15 (R16). -/
  v : Vector Byte 16
  /-- The index register I (R17). -/
  i : Word
  /-- The program counter (R18). -/
  pc : Word
  /-- The 16 stack entries (R20). -/
  stack : Vector Word 16
  /-- SP, the number of occupied entries, 0 to 16 (R20, log 18). -/
  sp : Fin 17
  /-- The delay timer DT (R22). -/
  dt : Byte
  /-- The sound timer ST (R22). -/
  st : Byte
  /-- The framebuffer (R23). -/
  fb : Framebuffer
  /-- The keypad, true = pressed (R24). -/
  key : Vector Bool 16
  /-- The wait-for-key latch is armed (R25). -/
  waitActive : Bool
  /-- The target register of the WAIT_KEY that armed the latch (R25). -/
  waitReg : RegIdx
  /-- The first key whose press was recorded while the latch was armed (R25). -/
  waitKey : Option KeyIdx
  /-- The model's own: the block's settings (00_scope.md R7). Nothing the machine does changes them (log 2). -/
  params : Params
  /-- The model's own: how many random draws were made; the next draw is `Config.freeDraw drawCount` (log 3). -/
  drawCount : Nat
  deriving DecidableEq, Repr

/-- The typed errors (60_exceptions.md R101). An error leaves the state as it was (40_tick_driver.md R51): a fault
carries no state, and the host's `command` (Commands.lean) hands back the state unchanged. -/
inductive Fault where
  /-- Raised by `step` (tick_cpu) when the fetched word matches no row of the decode table (R102). The spec's own
  error, so neither safer nor less safe than the hardware. -/
  | unsupportedOpcode (w : Word)
  /-- Raised by CALL when SP = 16 (R103). The spec's own error. -/
  | stackOverflow
  /-- Raised by RET when SP = 0 (R104). The spec's own error. -/
  | stackUnderflow
  /-- Raised by the command `load`, never by a step, under LOAD_POLICY = REJECT when the ROM has more than 3584
  bytes (R105). The spec's own error. -/
  | romTooLarge
  deriving DecidableEq, Repr

/-- Why the model gives no meaning. No arm of `exec` answers so: all 35 instructions are modelled. -/
inductive Refusal where
  /-- Raised by an arm of `exec` whose instruction has no meaning yet; there is none. Safe: the model stops. -/
  | notModelled (mnemonic : String)
  deriving DecidableEq, Repr

/-- The machine after reset, which is also the machine at power-on (10_state.md R26, 70_reset_and_hazards.md R117,
R118; log 9): memory with nothing listed reads as the FONT and zeros. `params` and `drawCount` are the model's own
and hold the spec's settings and DESIGN CHOICE 0 (log 2, 3). -/
def State.reset : State where
  mem := []
  v := Vector.replicate 16 0
  i := 0
  pc := BitVec.ofNat 16 Config.progBase
  stack := Vector.replicate 16 0
  sp := 0
  dt := 0
  st := 0
  fb := Vector.replicate 32 (Vector.replicate 64 false)
  key := Vector.replicate 16 false
  waitActive := false
  waitReg := 0
  waitKey := none
  params := Params.spec
  drawCount := 0

end Sys2Proof.Machine
end

