-- ==== Sys2Proof/Machine/Ops.lean ====
section
/-! DEFINITION. The shared operations: memory (20_memory.md), register writes, the call stack (10_state.md R21), pc, the
framebuffer, the latch, and raising an error (40_tick_driver.md R51). Every meaning is written over these. -/

namespace Sys2Proof.Machine

/-! ### Memory -/

/-- The effective address: every byte address is reduced modulo 4096 (R29; log 4). -/
def eff (a : Nat) : Nat := a % Config.memSize

/-- What an address that no cell lists reads as: the contents of memory after reset with the spec's FONT (10_state.md
R26; log 9, 10). -/
def Memory.resetByte (a : Nat) : Byte := Config.fontBytes.getD a 0

/-- The byte at an address. -/
def Memory.read : Memory → Nat → Byte
  | [], a => Memory.resetByte a
  | (k, c) :: m, a => if k = a then c else Memory.read m a

/-- Puts a cell in front, unless it says no more than an unlisted address does. -/
def Memory.cons (a : Nat) (b : Byte) (m : Memory) : Memory :=
  if b = Memory.resetByte a then m else (a, b) :: m

/-- Writes the byte at an address, keeping the canonical form. -/
def Memory.write : Memory → Nat → Byte → Memory
  | [], a, b => Memory.cons a b []
  | (k, c) :: m, a, b =>
    if a < k then Memory.cons a b ((k, c) :: m)
    else if a = k then Memory.cons a b m
    else (k, c) :: Memory.write m a b

/-- The canonical form from a lower bound on: addresses strictly rising from `lo` and below 4096, no cell equal to
what an unlisted address reads as. -/
def Memory.wfFrom (lo : Nat) : Memory → Bool
  | [] => true
  | (k, c) :: m => decide (lo ≤ k) && decide (k < Config.memSize) && decide (c ≠ Memory.resetByte k) && Memory.wfFrom (k + 1) m

/-- The canonical form of memory (log 20). -/
def Memory.wf (m : Memory) : Bool := Memory.wfFrom 0 m

/-- Writes bytes at increasing addresses from `a`; the caller keeps them below 4096. -/
def Memory.writeBytes (m : Memory) (a : Nat) : List Byte → Memory
  | [] => m
  | b :: bs => Memory.writeBytes (Memory.write m a b) (a + 1) bs

/-- Memory as `reset` leaves it for a FONT: the FONT at 0x000, 0x00 elsewhere (70_reset_and_hazards.md R117). -/
def Memory.afterReset (font : Font) : Memory := Memory.writeBytes [] Config.fontBase font.toList

/-- MemRead(a, 1) (R30). -/
def State.byteAt (s : State) (a : Nat) : Byte := s.mem.read (eff a)

/-- MemRead(a, 2), big-endian: each byte's address is reduced on its own (R30, R31). -/
def State.wordAt (s : State) (a : Nat) : Word := joinBytes (s.byteAt a) (s.byteAt (a + 1))

/-- Replaces memory. -/
def State.setMem (s : State) (m : Memory) : State := { s with mem := m }

/-- MemWrite(a, 1, b) (R30); no address is protected (R36; log 12). -/
def State.setByte (s : State) (a : Nat) (b : Byte) : State := s.setMem (s.mem.write (eff a) b)

/-- MemWrite(a, 2, w): the high byte at `a` (R30). -/
def State.setWord (s : State) (a : Nat) (w : Word) : State :=
  (s.setByte a (w.extractLsb' 8 8)).setByte (a + 1) (w.extractLsb' 0 8)

/-! ### Registers -/

/-- Reads V[x] (10_state.md R14). -/
def State.getV (s : State) (x : RegIdx) : Byte := s.v.get x

/-- `V[x] <- b` (R14). -/
def State.setV (s : State) (x : RegIdx) (b : Byte) : State := { s with v := s.v.set x.val b x.isLt }

/-- `I <- w` (R17). -/
def State.setI (s : State) (w : Word) : State := { s with i := w }

/-- `pc <- w`; all 16 bits are kept (R19; log 4). -/
def State.setPc (s : State) (w : Word) : State := { s with pc := w }

/-- `DT <- b` (R22). -/
def State.setDt (s : State) (b : Byte) : State := { s with dt := b }

/-- `ST <- b` (R22). -/
def State.setSt (s : State) (b : Byte) : State := { s with st := b }

/-- Counts one random draw as made (the model's own field; log 3). -/
def State.countDraw (s : State) : State := { s with drawCount := s.drawCount + 1 }

/-- The next draw, `draw8()` of 42_alu.md R83: a free value (log 3). -/
def State.nextDraw (s : State) : Byte := Config.freeDraw s.drawCount

/-! ### Program counter -/

/-- `pc <- (pc + 2) mod 2^16`: the default advance (40_tick_driver.md R50) and a taken skip (41_control_flow.md R64). -/
def State.advance (s : State) : State := s.setPc (s.pc + BitVec.ofNat 16 Config.insnBytes)

/-- `skip(c)` (R64). -/
def State.skipIf (s : State) (c : Bool) : State := if c then s.advance else s

/-- `pc <- ipc`: execution starts with pc = ipc + 2 (R50), so the instruction's own address is pc - 2 (log 16). -/
def State.retreat (s : State) : State := s.setPc (s.pc - BitVec.ofNat 16 Config.insnBytes)

/-- The word at pc (R50). -/
def State.fetch (s : State) : Word := s.wordAt s.pc.toNat

/-! ### Errors -/

/-- `raise E` (R51, 60_exceptions.md R100): the command ends with a typed error. There is no vector, no handler, no
saved pc and no return from an error (R107, R108), so nothing is written; the state the host is left with is the
state before the command (Commands.lean; log 13). -/
def raise (e : Fault) : Host.Outcome State Fault Refusal := .fault e

/-- Ends an instruction that can raise an error. -/
def finish : Except Fault State → Host.Outcome State Fault Refusal
  | .ok s => .next s
  | .error e => raise e

/-! ### Call stack -/

/-- `push(w)` (10_state.md R21). -/
def State.push (s : State) (w : Word) : Except Fault State :=
  if h : s.sp.val < Config.stackDepth then
    .ok { s with stack := s.stack.set s.sp.val w h, sp := ⟨s.sp.val + 1, by simp only [Config.stackDepth] at h; omega⟩ }
  else .error .stackOverflow

/-- `pop()`: the entry is not cleared (R21; log 18). -/
def State.pop (s : State) : Except Fault (Word × State) :=
  if h : 0 < s.sp.val then
    .ok (s.stack[s.sp.val - 1]'(by have := s.sp.isLt; omega), { s with sp := ⟨s.sp.val - 1, by have := s.sp.isLt; omega⟩ })
  else .error .stackUnderflow

/-! ### Framebuffer -/

/-- A screen with every pixel off (44_display.md R91). -/
def Framebuffer.blank : Framebuffer := Vector.replicate 32 (Vector.replicate 64 false)

/-- `fb[x, y]` (10_state.md R23). -/
def Framebuffer.get (f : Framebuffer) (x : Fin 64) (y : Fin 32) : Bool := (Vector.get f y).get x

/-- `fb[x, y] <- not fb[x, y]` (R92). -/
def Framebuffer.flip (f : Framebuffer) (x : Fin 64) (y : Fin 32) : Framebuffer :=
  Vector.set f y.val ((Vector.get f y).set x.val (!Framebuffer.get f x y) x.isLt) y.isLt

/-- Replaces the framebuffer. -/
def State.setFb (s : State) (f : Framebuffer) : State := { s with fb := f }

/-- The pixel at column x and row y. -/
def State.pixel (s : State) (x : Fin 64) (y : Fin 32) : Bool := s.fb.get x y

/-! ### Keypad and latch -/

/-- `key[k]` (R24). -/
def State.getKey (s : State) (k : KeyIdx) : Bool := s.key.get k

/-- `key[k] <- p` (R24). -/
def State.setKey (s : State) (k : KeyIdx) (p : Bool) : State := { s with key := s.key.set k.val p k.isLt }

/-- Arms the latch for register x (45_keypad_timers.md R97). -/
def State.armLatch (s : State) (x : RegIdx) : State := { s with waitActive := true, waitReg := x, waitKey := none }

/-- Clears the latch's three fields (10_state.md R25). -/
def State.clearLatch (s : State) : State := { s with waitActive := false, waitReg := 0, waitKey := none }

/-- Records a key in the armed latch (40_tick_driver.md R54). -/
def State.recordKey (s : State) (k : KeyIdx) : State := { s with waitKey := some k }

end Sys2Proof.Machine
end

