-- ==== Sys2Proof/Machine/Operands.lean ====
section
/-! DEFINITION. The operand forms: the data address I + k (43_index_memory.md R84), the 12-bit target (41_control_flow.md
R58), the shift source (42_alu.md R71), the key number (45_keypad_timers.md R93), the glyph address (43_index_memory.md
R87). A register operand is `State.getV`, an 8-bit immediate is the field itself. -/

namespace Sys2Proof.Machine

/-- `zext_16(nnn)` (30_encoding.md R41). -/
def target (nnn : Addr12) : Word := nnn.setWidth 16

/-- The address of data byte k, `I + k`, not truncated; `byteAt` and `setByte` reduce it (R84, 20_memory.md R30). -/
def State.dataAddr (s : State) (k : Nat) : Nat := s.i.toNat + k

/-- MemRead(I + k, 1). -/
def State.dataByte (s : State) (k : Nat) : Byte := s.byteAt (s.dataAddr k)

/-- MemWrite(I + k, 1, b). -/
def State.setDataByte (s : State) (k : Nat) (b : Byte) : State := s.setByte (s.dataAddr k) b

/-- The register that RSHIFT and LSHIFT read, chosen by SHIFT_SRC (R71; log 2). -/
def State.shiftReg (s : State) (x y : RegIdx) : RegIdx :=
  match s.params.shiftSrc with
  | .vx => x
  | .vy => y

/-- The source operand of RSHIFT and LSHIFT. -/
def State.shiftOperand (s : State) (x y : RegIdx) : Byte := s.getV (s.shiftReg x y)

/-- The low nibble of a byte, `v & 0x0F`, as a number. -/
def lowNibble (b : Byte) : Fin 16 := (b.extractLsb' 0 4).toFin

/-- The key that SKIP_KEY and SKIP_NKEY read, `key[V[x] & 0x0F]` (R93; log 6). -/
def State.keyOperand (s : State) (x : RegIdx) : Bool := s.getKey (lowNibble (s.getV x))

/-- The glyph address `font_base + 5 * (V[x] & 0x0F)` (43_index_memory.md R87). -/
def glyphAddr (b : Byte) : Word := BitVec.ofNat 16 (Config.fontBase + Config.glyphBytes * (lowNibble b).val)

/-- A byte read as an unsigned number, in 16 bits. -/
def zext16 (b : Byte) : Word := b.setWidth 16

/-- A key's index as the byte WAIT_KEY writes (45_keypad_timers.md R97). -/
def keyByte (k : KeyIdx) : Byte := BitVec.ofNat 8 k.val

end Sys2Proof.Machine
end

