-- ==== Sys2Proof/Machine/Flags.lean ====
section
/-! DEFINITION. The flag computations. The only flag is VF (10_state.md R16). Each is computed from the operands as they
were before the instruction, as mathematical values (42_alu.md R69). -/

namespace Sys2Proof.Machine

/-- `bool(c)` as the byte written to VF: 1 or 0 (00_scope.md R9). -/
def flagByte (c : Bool) : Byte := if c then 1 else 0

/-- ADD_VY's carry: a + b > 255 (R78). -/
def carry (a b : Byte) : Bool := decide (255 < a.toNat + b.toNat)

/-- SUB_VY's and RSUB_VY's no-borrow bit: a >= b (R79, R80). -/
def noBorrow (a b : Byte) : Bool := decide (b.toNat ≤ a.toNat)

/-- RSHIFT's bit shifted out: bit 0 of the source (R81). -/
def lowBit (a : Byte) : Bool := a.getLsbD 0

/-- LSHIFT's bit shifted out: bit 7 of the source (R82). -/
def highBit (a : Byte) : Bool := a.getLsbD 7

/-- `VF <- bool(c)`. -/
def State.setFlag (s : State) (c : Bool) : State := s.setV VF (flagByte c)

/-- "Result, then flag": writes V[x], then VF, so that at x = F the flag remains (R70; log 5). -/
def State.setResultFlag (s : State) (x : RegIdx) (result : Byte) (c : Bool) : State := (s.setV x result).setFlag c

end Sys2Proof.Machine
end

