-- ==== Sys2Proof/Machine/Alu.lean ====
section
/-! DEFINITION. The register and arithmetic instructions (42_alu.md). All arithmetic is modulo 256 (R69); every operand is
read before any write (R70). -/

namespace Sys2Proof.Machine

/-- SET_NN Vx, nn, R72. -/
def execSetNn (x : RegIdx) (nn : Byte) (s : State) : Host.Outcome State Fault Refusal := .next (s.setV x nn)

/-- ADD_NN Vx, nn, R73: no flag. -/
def execAddNn (x : RegIdx) (nn : Byte) (s : State) : Host.Outcome State Fault Refusal := .next (s.setV x (s.getV x + nn))

/-- SET_VY Vx, Vy, R74. -/
def execSetVy (x y : RegIdx) (s : State) : Host.Outcome State Fault Refusal := .next (s.setV x (s.getV y))

/-- OR Vx, Vy, R75: VF is not reset (log 15). -/
def execOr (x y : RegIdx) (s : State) : Host.Outcome State Fault Refusal := .next (s.setV x (s.getV x ||| s.getV y))

/-- AND Vx, Vy, R76. -/
def execAnd (x y : RegIdx) (s : State) : Host.Outcome State Fault Refusal := .next (s.setV x (s.getV x &&& s.getV y))

/-- XOR Vx, Vy, R77. -/
def execXor (x y : RegIdx) (s : State) : Host.Outcome State Fault Refusal := .next (s.setV x (s.getV x ^^^ s.getV y))

/-- ADD_VY Vx, Vy, R78. -/
def execAddVy (x y : RegIdx) (s : State) : Host.Outcome State Fault Refusal :=
  .next (s.setResultFlag x (s.getV x + s.getV y) (carry (s.getV x) (s.getV y)))

/-- SUB_VY Vx, Vy, R79. -/
def execSubVy (x y : RegIdx) (s : State) : Host.Outcome State Fault Refusal :=
  .next (s.setResultFlag x (s.getV x - s.getV y) (noBorrow (s.getV x) (s.getV y)))

/-- RSUB_VY Vx, Vy, R80. -/
def execRsubVy (x y : RegIdx) (s : State) : Host.Outcome State Fault Refusal :=
  .next (s.setResultFlag x (s.getV y - s.getV x) (noBorrow (s.getV y) (s.getV x)))

/-- RSHIFT Vx, Vy, R81. -/
def execRshift (x y : RegIdx) (s : State) : Host.Outcome State Fault Refusal :=
  .next (s.setResultFlag x (s.shiftOperand x y >>> 1) (lowBit (s.shiftOperand x y)))

/-- LSHIFT Vx, Vy, R82. -/
def execLshift (x y : RegIdx) (s : State) : Host.Outcome State Fault Refusal :=
  .next (s.setResultFlag x (s.shiftOperand x y <<< 1) (highBit (s.shiftOperand x y)))

/-- RAND's effect for a given draw r: `V[x] <- r & nn` (R83). -/
def State.maskDraw (s : State) (x : RegIdx) (nn r : Byte) : State := s.setV x (r &&& nn)

/-- RAND Vx, nn, R83: the draw is the free value `State.nextDraw`, fresh at every execution (log 3). -/
def execRand (x : RegIdx) (nn : Byte) (s : State) : Host.Outcome State Fault Refusal :=
  .next (s.countDraw.maskDraw x nn s.nextDraw)

end Sys2Proof.Machine
end

