-- ==== Sys2Proof/Machine/ControlFlow.lean ====
section
/-! DEFINITION. The control flow instructions (41_control_flow.md). Every meaning runs as `execute` of 40_tick_driver.md
R50: on entry pc = ipc + 2. -/

namespace Sys2Proof.Machine

/-- NOP, R59. -/
def execNop (s : State) : Host.Outcome State Fault Refusal := .next s

/-- JMP nnn, R60. -/
def execJmp (nnn : Addr12) (s : State) : Host.Outcome State Fault Refusal := .next (s.setPc (target nnn))

/-- CALL nnn, R61. -/
def execCall (nnn : Addr12) (s : State) : Host.Outcome State Fault Refusal :=
  finish ((s.push s.pc).map fun t => t.setPc (target nnn))

/-- RET, R62. -/
def execRet (s : State) : Host.Outcome State Fault Refusal :=
  finish (s.pop.map fun p => p.2.setPc p.1)

/-- JMP_V0 nnn, R63: always V0, the sum kept in 16 bits (log 4). -/
def execJmpV0 (nnn : Addr12) (s : State) : Host.Outcome State Fault Refusal :=
  .next (s.setPc (target nnn + zext16 (s.getV 0)))

/-- SKIP_EQ_NN Vx, nn, R65. -/
def execSkipEqNn (x : RegIdx) (nn : Byte) (s : State) : Host.Outcome State Fault Refusal :=
  .next (s.skipIf (decide (s.getV x = nn)))

/-- SKIP_NEQ_NN Vx, nn, R66. -/
def execSkipNeqNn (x : RegIdx) (nn : Byte) (s : State) : Host.Outcome State Fault Refusal :=
  .next (s.skipIf (decide (s.getV x ≠ nn)))

/-- SKIP_EQ_VY Vx, Vy, R67. -/
def execSkipEqVy (x y : RegIdx) (s : State) : Host.Outcome State Fault Refusal :=
  .next (s.skipIf (decide (s.getV x = s.getV y)))

/-- SKIP_NEQ_VY Vx, Vy, R68. -/
def execSkipNeqVy (x y : RegIdx) (s : State) : Host.Outcome State Fault Refusal :=
  .next (s.skipIf (decide (s.getV x ≠ s.getV y)))

end Sys2Proof.Machine
end

