-- ==== Sys2Proof/Machine/Display.lean ====
section
/-! DEFINITION. The display instructions (44_display.md). -/

namespace Sys2Proof.Machine

/-- CLS, R91. -/
def execCls (s : State) : Host.Outcome State Fault Refusal := .next (s.setFb Framebuffer.blank)

/-- A drawing in progress: the framebuffer and whether a lit pixel was turned off so far (`hit` of R92). -/
structure Drawing where
  fb : Framebuffer
  hit : Bool
  deriving DecidableEq, Repr

/-- Toggles one pixel, noting a collision (R92). -/
def Drawing.toggle (d : Drawing) (px : Fin 64) (py : Fin 32) : Drawing :=
  { fb := d.fb.flip px py, hit := d.hit || d.fb.get px py }

/-- The column of sprite column c, `(x0 + c) mod 64` (R92: each pixel wraps on its own). -/
def drawColumn (x0 : Byte) (c : Nat) : Fin 64 := Fin.ofNat 64 (x0.toNat + c)

/-- The row of sprite row r, `(y0 + r) mod 32` (R92). -/
def drawLine (y0 : Byte) (r : Nat) : Fin 32 := Fin.ofNat 32 (y0.toNat + r)

/-- Sprite column c of a row byte: bit 7 is the leftmost pixel (R92; log 11). -/
def spriteBit (b : Byte) (c : Nat) : Bool := b.getLsbD (7 - c)

/-- The first `n` columns of one sprite row, left to right. -/
def Drawing.columns (d : Drawing) (x0 : Byte) (py : Fin 32) (b : Byte) : (n : Nat) → Drawing
  | 0 => d
  | c + 1 =>
    let e := d.columns x0 py b c
    if spriteBit b c then e.toggle (drawColumn x0 c) py else e

/-- The first `n` rows of a sprite whose row r is the byte `row r`, top to bottom. -/
def Drawing.rows (d : Drawing) (x0 y0 : Byte) (row : Nat → Byte) : (n : Nat) → Drawing
  | 0 => d
  | r + 1 => (d.rows x0 y0 row r).columns x0 (drawLine y0 r) (row r) 8

/-- The drawing of an n-row sprite at I on the screen of s at (x0, y0) (R92). -/
def State.blit (s : State) (x0 y0 : Byte) (n : Nat) : Drawing :=
  Drawing.rows { fb := s.fb, hit := false } x0 y0 s.dataByte n

/-- DRAW Vx, Vy, n, R92: the coordinates are read before VF is written, VF last. -/
def execDraw (x y : RegIdx) (n : Fin 16) (s : State) : Host.Outcome State Fault Refusal :=
  let d := s.blit (s.getV x) (s.getV y) n.val
  .next ((s.setFb d.fb).setFlag d.hit)

end Sys2Proof.Machine
end

