-- ==== Sys2Proof/Machine/IndexMemory.lean ====
section
/-! DEFINITION. The index register and memory instructions (43_index_memory.md). No access changes I (R84; log 15). -/

namespace Sys2Proof.Machine

/-- SET_I nnn, R85. -/
def execSetI (nnn : Addr12) (s : State) : Host.Outcome State Fault Refusal := .next (s.setI (target nnn))

/-- ADD_I Vx, R86: modulo 2^16, no flag (log 15). -/
def execAddI (x : RegIdx) (s : State) : Host.Outcome State Fault Refusal := .next (s.setI (s.i + zext16 (s.getV x)))

/-- SET_I_FONT Vx, R87. -/
def execSetIFont (x : RegIdx) (s : State) : Host.Outcome State Fault Refusal := .next (s.setI (glyphAddr (s.getV x)))

/-- The three decimal digits of a byte, hundreds, tens, units (R88). -/
def bcdHundreds (b : Byte) : Byte := BitVec.ofNat 8 (b.toNat / 100)
def bcdTens (b : Byte) : Byte := BitVec.ofNat 8 (b.toNat / 10 % 10)
def bcdUnits (b : Byte) : Byte := BitVec.ofNat 8 (b.toNat % 10)

/-- BCD's three writes at I, I + 1, I + 2 (R88). -/
def State.storeDigits (s : State) (b : Byte) : State :=
  ((s.setDataByte 0 (bcdHundreds b)).setDataByte 1 (bcdTens b)).setDataByte 2 (bcdUnits b)

/-- BCD Vx, R88. -/
def execBcd (x : RegIdx) (s : State) : Host.Outcome State Fault Refusal := .next (s.storeDigits (s.getV x))

/-- The first `n` writes of STORE, in order: V[k] at I + k for k = 0 .. n - 1 (R89). -/
def State.storeRegs (s : State) : (n : Nat) → State
  | 0 => s
  | k + 1 => (s.storeRegs k).setDataByte k (s.getV (Fin.ofNat 16 k))

/-- STORE Vx, R89: x + 1 bytes. -/
def execStore (x : RegIdx) (s : State) : Host.Outcome State Fault Refusal := .next (s.storeRegs (x.val + 1))

/-- The first `n` reads of LOAD, in order: V[k] from I + k for k = 0 .. n - 1 (R90). -/
def State.loadRegs (s : State) : (n : Nat) → State
  | 0 => s
  | k + 1 => (s.loadRegs k).setV (Fin.ofNat 16 k) (s.dataByte k)

/-- LOAD Vx, R90: x + 1 bytes. -/
def execLoad (x : RegIdx) (s : State) : Host.Outcome State Fault Refusal := .next (s.loadRegs (x.val + 1))

end Sys2Proof.Machine
end

