-- ==== Sys2Proof/Machine/KeypadTimers.lean ====
section
/-! DEFINITION. The keypad and timer instructions (45_keypad_timers.md). -/

namespace Sys2Proof.Machine

/-- SKIP_KEY Vx, R94. -/
def execSkipKey (x : RegIdx) (s : State) : Host.Outcome State Fault Refusal := .next (s.skipIf (s.keyOperand x))

/-- SKIP_NKEY Vx, R95. -/
def execSkipNkey (x : RegIdx) (s : State) : Host.Outcome State Fault Refusal := .next (s.skipIf (!s.keyOperand x))

/-- GET_DT Vx, R96. -/
def execGetDt (x : RegIdx) (s : State) : Host.Outcome State Fault Refusal := .next (s.setV x s.dt)

/-- The key an armed latch has recorded, if any: `wait_active and wait_key ≠ none` (R97). -/
def State.recordedKey (s : State) : Option KeyIdx := if s.waitActive then s.waitKey else none

/-- WAIT_KEY when it does not resolve: arm the latch unless it is armed, and stay at the instruction (R97; log 7). -/
def State.keepWaiting (s : State) (x : RegIdx) : State :=
  (if s.waitActive then s else s.armLatch x).retreat

/-- WAIT_KEY when it resolves with key k: write its index, clear the latch, go on (R97). -/
def State.resolveWait (s : State) (x : RegIdx) (k : KeyIdx) : State := (s.setV x (keyByte k)).clearLatch

/-- WAIT_KEY Vx, R97. -/
def execWaitKey (x : RegIdx) (s : State) : Host.Outcome State Fault Refusal :=
  match s.recordedKey with
  | some k => .next (s.resolveWait x k)
  | none => .next (s.keepWaiting x)

/-- SET_DT Vx, R98. -/
def execSetDt (x : RegIdx) (s : State) : Host.Outcome State Fault Refusal := .next (s.setDt (s.getV x))

/-- SET_ST Vx, R99. -/
def execSetSt (x : RegIdx) (s : State) : Host.Outcome State Fault Refusal := .next (s.setSt (s.getV x))

end Sys2Proof.Machine
end

