-- ==== Sys2Proof/Machine/Dispatch.lean ====
section
/-! DEFINITION. `execute` of 40_tick_driver.md R50: one arm per instruction. -/

namespace Sys2Proof.Machine

def exec (i : Instr) (s : State) : Host.Outcome State Fault Refusal :=
  match i with
  | .nop => Sys2Proof.Machine.execNop s
  | .cls => Sys2Proof.Machine.execCls s
  | .ret => Sys2Proof.Machine.execRet s
  | .jmp nnn => Sys2Proof.Machine.execJmp nnn s
  | .call nnn => Sys2Proof.Machine.execCall nnn s
  | .skipEqNn x nn => Sys2Proof.Machine.execSkipEqNn x nn s
  | .skipNeqNn x nn => Sys2Proof.Machine.execSkipNeqNn x nn s
  | .skipEqVy x y => Sys2Proof.Machine.execSkipEqVy x y s
  | .setNn x nn => Sys2Proof.Machine.execSetNn x nn s
  | .addNn x nn => Sys2Proof.Machine.execAddNn x nn s
  | .setVy x y => Sys2Proof.Machine.execSetVy x y s
  | .or x y => Sys2Proof.Machine.execOr x y s
  | .and x y => Sys2Proof.Machine.execAnd x y s
  | .xor x y => Sys2Proof.Machine.execXor x y s
  | .addVy x y => Sys2Proof.Machine.execAddVy x y s
  | .subVy x y => Sys2Proof.Machine.execSubVy x y s
  | .rshift x y => Sys2Proof.Machine.execRshift x y s
  | .rsubVy x y => Sys2Proof.Machine.execRsubVy x y s
  | .lshift x y => Sys2Proof.Machine.execLshift x y s
  | .skipNeqVy x y => Sys2Proof.Machine.execSkipNeqVy x y s
  | .setI nnn => Sys2Proof.Machine.execSetI nnn s
  | .jmpV0 nnn => Sys2Proof.Machine.execJmpV0 nnn s
  | .rand x nn => Sys2Proof.Machine.execRand x nn s
  | .draw x y n => Sys2Proof.Machine.execDraw x y n s
  | .skipKey x => Sys2Proof.Machine.execSkipKey x s
  | .skipNkey x => Sys2Proof.Machine.execSkipNkey x s
  | .getDt x => Sys2Proof.Machine.execGetDt x s
  | .waitKey x => Sys2Proof.Machine.execWaitKey x s
  | .setDt x => Sys2Proof.Machine.execSetDt x s
  | .setSt x => Sys2Proof.Machine.execSetSt x s
  | .addI x => Sys2Proof.Machine.execAddI x s
  | .setIFont x => Sys2Proof.Machine.execSetIFont x s
  | .bcd x => Sys2Proof.Machine.execBcd x s
  | .store x => Sys2Proof.Machine.execStore x s
  | .load x => Sys2Proof.Machine.execLoad x s

end Sys2Proof.Machine
end

