-- ==== Sys2Proof/Machine/Step.lean ====
section
/-! DEFINITION. One step of the machine is one `tick_cpu` (40_tick_driver.md R50; log 1). -/

namespace Sys2Proof.Machine

/-- `tick_cpu`: fetch the word at pc; an unsupported word raises its error before anything is written; otherwise
advance pc by 2 and execute (R50, 60_exceptions.md R102). -/
def step (s : State) : Host.Outcome State Fault Refusal :=
  match decodeWord s.fetch with
  | none => raise (.unsupportedOpcode s.fetch)
  | some i => exec i s.advance

/-- The same state with an instruction's word (numbered as spec/opcode_table.json numbers it) stored at pc, where the
next step fetches it. Nothing but those two bytes of memory changes. -/
def State.withFetchWord (s : State) (nbits w : Nat) : State := s.setWord s.pc.toNat (tableWord nbits w)

end Sys2Proof.Machine
end

