-- ==== Sys2Proof/Machine/Commands.lean ====
section
/-! DEFINITION. The host's interface (40_tick_driver.md R48): the commands `reset`, `load`, `tick_cpu`, `tick_frame`,
`keypress` and `get_display`, the output `sound_active`, and runs of commands (R49, R57; log 1). -/

namespace Sys2Proof.Machine

/-- `tick_frame`'s decrement, floored at zero (R52). -/
def countDown (t : Byte) : Byte := if 0 < t.toNat then t - 1 else t

/-- `tick_frame`: each timer down by one, floored at 0, and nothing else (R52). -/
def State.tickFrame (s : State) : State := (s.setDt (countDown s.dt)).setSt (countDown s.st)

/-- `reset` (70_reset_and_hazards.md R117): every field of the Machine State at its reset value, memory with the
block's FONT. The model's own fields stay: the settings are the block's, and draws after a reset are no repetition
of the draws before it, since R83 gives no law between draws (log 2, 3). -/
def State.resetCommand (s : State) : State :=
  { State.reset with mem := Memory.afterReset s.params.font, params := s.params, drawCount := s.drawCount }

/-- `load` refuses the ROM: only under REJECT, when it has more than 3584 bytes (R53; log 8). -/
def State.rejectsRom (s : State) (rom : List Byte) : Bool := decide (s.params.loadPolicy = .reject) && !romFits rom

/-- `load`'s copy: at most 3584 bytes from 0x200 up, and the latch cleared (R53; log 8). -/
def State.copyRom (s : State) (rom : List Byte) : State :=
  (s.setMem (s.mem.writeBytes Config.progBase (rom.take Config.maxRom))).clearLatch

/-- `load(rom)` (R53): on RomTooLarge the state is unchanged (60_exceptions.md R105). -/
def State.loadRom (s : State) (rom : List Byte) : Except Fault State :=
  if s.rejectsRom rom then .error .romTooLarge else .ok (s.copyRom rom)

/-- A false-to-true transition of key k while the latch is armed and has recorded nothing (R54; log 7). -/
def State.recordsPress (s : State) (k : KeyIdx) (pressed : Bool) : Bool :=
  pressed && !s.getKey k && s.waitActive && s.waitKey.isNone

/-- `keypress` of a key that exists (R54). -/
def State.pressKey (s : State) (k : KeyIdx) (pressed : Bool) : State :=
  (if s.recordsPress k pressed then s.recordKey k else s).setKey k pressed

/-- `keypress(index, pressed)` (R54): an index of 16 or more has no effect (log 6). -/
def State.keypress (s : State) (index : Byte) (pressed : Bool) : State :=
  if h : index.toNat < 16 then s.pressKey ⟨index.toNat, h⟩ pressed else s

/-- `get_display` (R55): 2048 pixels, row-major, `L[y * 64 + x] = fb[x, y]` (log 11). -/
def State.display (s : State) : List Bool := s.fb.toList.flatMap fun row => row.toList

/-- The output `sound_active` (R56; log 19). -/
def State.soundActive (s : State) : Bool := decide (s.st ≠ 0)

/-- The commands of R48. -/
inductive Command where
  | reset
  | load (rom : List Byte)
  | tickCpu
  | tickFrame
  | keypress (index : Byte) (pressed : Bool)
  | getDisplay
  deriving DecidableEq, Repr

/-- What a command answers (R48). -/
inductive Response where
  /-- `reset`, `tick_frame`, `keypress`: nothing. -/
  | none
  /-- `load`, `tick_cpu`: `Ok`. -/
  | ok
  /-- `load`, `tick_cpu`: `Err(e)`. -/
  | err (e : Fault)
  /-- `tick_cpu` on an instruction the model gives no meaning to: never, all 35 are modelled. -/
  | refused (r : Refusal)
  /-- `get_display`: the pixels. -/
  | display (pixels : List Bool)
  deriving DecidableEq, Repr

/-- The state after a `tick_cpu` and its answer: an error leaves the state as it was (R51; log 13). -/
def State.afterTick (s : State) : Host.Outcome State Fault Refusal → State × Response
  | .next t => (t, .ok)
  | .fault e => (s, .err e)
  | .refused r => (s, .refused r)

/-- The state after a `load` and its answer. -/
def State.afterLoad (s : State) : Except Fault State → State × Response
  | .ok t => (t, .ok)
  | .error e => (s, .err e)

/-- One command (R48), run to completion (R49). -/
def command (c : Command) (s : State) : State × Response :=
  match c with
  | .reset => (s.resetCommand, .none)
  | .load rom => s.afterLoad (s.loadRom rom)
  | .tickCpu => s.afterTick (step s)
  | .tickFrame => (s.tickFrame, .none)
  | .keypress index pressed => (s.keypress index pressed, .none)
  | .getDisplay => (s, .display s.display)

/-- A run: a finite sequence of commands, one after the other, with the answer to each (R49, R57). -/
def runCommands : List Command → State → State × List Response
  | [], s => (s, [])
  | c :: cs, s =>
    let r := command c s
    let q := runCommands cs r.1
    (q.1, r.2 :: q.2)

/-- The error's ordinal (60_exceptions.md R101). -/
def Fault.ordinal : Fault → Nat
  | .unsupportedOpcode _ => 1
  | .stackOverflow => 2
  | .stackUnderflow => 3
  | .romTooLarge => 4

end Sys2Proof.Machine
end

