-- ==== Sys2Proof/Safety.lean ====
section
/-! DEFINITION. The terms in which claims are stated: the invariants of 10_state.md R27, the parked states of
40_tick_driver.md R57, runs without an error, and what two states share. -/

namespace Sys2Proof.Machine

/-- The latch agrees with the program: while it is armed the word at pc is the WAIT_KEY that armed it; while it is not
armed its other two fields hold their cleared values (10_state.md R27 points 2 and 3, R25). -/
def State.LatchCoherent (s : State) : Prop :=
  (s.waitActive = true → decodeWord s.fetch = some (.waitKey s.waitReg)) ∧
  (s.waitActive = false → s.waitReg = 0 ∧ s.waitKey = none)

/-- The invariant of the machine. The latch agrees with the program (R27 points 2 and 3); `0 <= SP <= 16` (point 1) and the
timers' range (point 4) are carried by the types. Memory is in canonical form, so every listed address is below 4096: this
half is the model's own and no rule's (log 20, DESIGN CHOICE). -/
structure State.Inv (s : State) : Prop where
  memWf : s.mem.wf = true
  latch : s.LatchCoherent

/-- Parked at a jump to itself (40_tick_driver.md R57): the word at pc is `1nnn` with nnn = pc. -/
def State.ParkedJump (s : State) : Prop := ∃ nnn : Addr12, decodeWord s.fetch = some (.jmp nnn) ∧ target nnn = s.pc

/-- Parked at a key wait (R57): the latch is armed and nothing is recorded. -/
def State.ParkedWait (s : State) : Prop := s.waitActive = true ∧ s.waitKey = none

/-- Parked (R57). -/
def State.Parked (s : State) : Prop := s.ParkedJump ∨ s.ParkedWait

/-- A step that neither faults nor is refused. -/
def State.CanStep (s : State) : Prop := ∃ t, step s = .next t

/-- A run of commands in which no command answers an error. -/
def NoError (cs : List Command) (s : State) : Prop := ∀ r ∈ (runCommands cs s).2, ∀ e, r ≠ .err e

/-- A part of the machine's state, for frames. -/
inductive Part where
  | mem | regs | i | pc | stack | dt | st | fb | key | latch | draws
  deriving DecidableEq, Repr

/-- The two states agree on one part; memory is compared byte by byte, registers one by one, pixels one by one. -/
def SamePart (s t : State) : Part → Prop
  | .mem => ∀ a, t.byteAt a = s.byteAt a
  | .regs => ∀ r, t.getV r = s.getV r
  | .i => t.i = s.i
  | .pc => t.pc = s.pc
  | .stack => t.stack = s.stack ∧ t.sp = s.sp
  | .dt => t.dt = s.dt
  | .st => t.st = s.st
  | .fb => ∀ x y, t.pixel x y = s.pixel x y
  | .key => ∀ k, t.getKey k = s.getKey k
  | .latch => t.waitActive = s.waitActive ∧ t.waitReg = s.waitReg ∧ t.waitKey = s.waitKey
  | .draws => t.drawCount = s.drawCount

/-- The frame: from s to t nothing changed but the parts named. The block's settings never
change: a clause of the model's (log 2, DESIGN CHOICE). -/
def OnlyChanges (parts : List Part) (s t : State) : Prop :=
  (∀ p, p ∉ parts → SamePart s t p) ∧ t.params = s.params

/-- No V register changed but those for which `w` holds. -/
def OnlyRegs (w : RegIdx → Prop) (s t : State) : Prop := ∀ r, ¬ w r → t.getV r = s.getV r

/-- Every word with `w & mask = match` decodes to the instruction `f w` (30_encoding.md R44). -/
def Selects (mtch mask : Word) (f : Word → Instr) : Prop := ∀ w, w &&& mask = mtch → decodeWord w = some (f w)

/-- The classes of unsupported words, as 30_encoding.md R45 lists them. -/
def UnsupportedClass (w : Word) : Prop :=
  (w.toNat / 4096 = 0x0 ∧ w.toNat ≠ 0x0000 ∧ w.toNat ≠ 0x00E0 ∧ w.toNat ≠ 0x00EE) ∨
  (w.toNat / 4096 = 0x5 ∧ w.toNat % 16 ≠ 0) ∨
  (w.toNat / 4096 = 0x8 ∧ 0x9 ≤ w.toNat % 16) ∨
  (w.toNat / 4096 = 0x9 ∧ w.toNat % 16 ≠ 0) ∨
  (w.toNat / 4096 = 0xE ∧ w.toNat % 256 ∉ [0x9E, 0xA1]) ∨
  (w.toNat / 4096 = 0xF ∧ w.toNat % 256 ∉ [0x07, 0x0A, 0x15, 0x18, 0x1E, 0x29, 0x33, 0x55, 0x65])

/-- The parts of the state an instruction may write, pc beyond the default advance included (10_state.md R15, R17,
R18, R20, R22, R23, R25; 20_memory.md R33). No instruction writes the keypad (R24). -/
def partsOf : Instr → List Part
  | .nop => []
  | .cls => [.fb]
  | .ret | .call _ => [.pc, .stack]
  | .jmp _ | .jmpV0 _ => [.pc]
  | .skipEqNn _ _ | .skipNeqNn _ _ | .skipEqVy _ _ | .skipNeqVy _ _ | .skipKey _ | .skipNkey _ => [.pc]
  | .setNn _ _ | .addNn _ _ | .setVy _ _ | .or _ _ | .and _ _ | .xor _ _ | .getDt _ | .load _ => [.regs]
  | .addVy _ _ | .subVy _ _ | .rsubVy _ _ | .rshift _ _ | .lshift _ _ => [.regs]
  | .rand _ _ => [.regs, .draws]
  | .draw _ _ _ => [.regs, .fb]
  | .waitKey _ => [.regs, .pc, .latch]
  | .setDt _ => [.dt]
  | .setSt _ => [.st]
  | .setI _ | .addI _ | .setIFont _ => [.i]
  | .bcd _ | .store _ => [.mem]

/-- The V registers an instruction may write: the table of 10_state.md R15. -/
def regsOf : Instr → RegIdx → Prop
  | .setNn x _ | .addNn x _ | .setVy x _ | .or x _ | .and x _ | .xor x _ | .rand x _ | .getDt x | .waitKey x =>
    fun r => r = x
  | .addVy x _ | .subVy x _ | .rsubVy x _ | .rshift x _ | .lshift x _ => fun r => r = x ∨ r = VF
  | .draw _ _ _ => fun r => r = VF
  | .load x => fun r => r ≤ x
  | .nop | .cls | .ret | .call _ | .jmp _ | .jmpV0 _ | .skipEqNn _ _ | .skipNeqNn _ _ | .skipEqVy _ _
  | .skipNeqVy _ _ | .skipKey _ | .skipNkey _ | .setDt _ | .setSt _ | .setI _ | .addI _ | .setIFont _ | .bcd _
  | .store _ => fun _ => False

/-- An n-row sprite at I, drawn at (x0, y0), has a set bit on column u and row v of the screen: some row r < n and
column c < 8 of the sprite land there, each coordinate wrapping on its own, and bit 7 - c of that row's byte is set
(44_display.md R92; the bit order is decision D17, log 11). -/
def SpriteCovers (s : State) (x0 y0 : Byte) (n : Nat) (u : Fin 64) (v : Fin 32) : Prop :=
  ∃ r c, r < n ∧ c < 8 ∧ u.val = (x0.toNat + c) % 64 ∧ v.val = (y0.toNat + r) % 32 ∧
    (s.byteAt (s.i.toNat + r)).getLsbD (7 - c) = true

/-- The address is none of the n data bytes at I (43_index_memory.md R84). -/
def OutsideData (s : State) (n : Nat) (a : Nat) : Prop := ∀ k, k < n → eff a ≠ eff (s.dataAddr k)

end Sys2Proof.Machine
end

