-- ==== Sys2Proof/Certificates/Slice0/Obligations.lean ====
section
/-! DEFINITION. The statements for the provers. Each docstring names the rule of spec/ it formalises, or the decision or
log entry it rests on. `exec i s` runs with pc = ipc + 2 on entry (40_tick_driver.md R50), so a statement of `exec`
that leaves pc unchanged says that the instruction completes with the default advance. Every frame (`OnlyChanges`) says
besides that the block's settings stay: they are a constant field of the model's own (log 2, DESIGN CHOICE). -/

open Sys2Proof Sys2Proof.Machine

/-! ### Encoding -/

/-- Words written out from the patterns of 30_encoding.md R42 and R47 decode to the instructions they stand for, and
8xyE, which other CHIP-8 descriptions call a left shift, decodes to nothing (R43). -/
def Obligations.SpecWordsDecode : Prop :=
  decodeWord 0x0000#16 = some .nop ∧ decodeWord 0x00E0#16 = some .cls ∧ decodeWord 0x00EE#16 = some .ret ∧
  decodeWord 0x2300#16 = some (.call 0x300) ∧ decodeWord 0x6312#16 = some (.setNn 3 0x12) ∧
  decodeWord 0x8124#16 = some (.addVy 1 2) ∧ decodeWord 0x8128#16 = some (.lshift 1 2) ∧
  decodeWord 0x812E#16 = none ∧ decodeWord 0xD015#16 = some (.draw 0 1 5) ∧
  decodeWord 0xE19E#16 = some (.skipKey 1) ∧ decodeWord 0xF50A#16 = some (.waitKey 5) ∧
  decodeWord 0xF733#16 = some (.bcd 7)

/-- Decoding the word, and the bytes, of any of the 35 instructions, with every operand at every value, gives that
instruction back and leaves the bytes after it (30_encoding.md R40, R41, R42). -/
def Obligations.DecodeOfEncodeIsTheInstruction : Prop :=
  (∀ i : Instr, decodeWord (encode i) = some i) ∧
  (∀ (i : Instr) (rest : List Byte), decodeBytes (encodeBytes i ++ rest) = .ok (i, rest))

/-- Each word has one meaning at most: a word that decodes is the word of the instruction it decodes to, so no two
words decode alike (30_encoding.md R44). -/
def Obligations.EncodeOfDecodeIsTheWord : Prop :=
  (∀ (w : Word) (i : Instr), decodeWord w = some i → encode i = w) ∧
  (∀ (w u : Word) (i : Instr), decodeWord w = some i → decodeWord u = some i → w = u)

/-- The nibble decoder agrees with the match and mask table of 30_encoding.md R44: a word that a row selects decodes to
an instruction of that row's name, a word that no row selects decodes to nothing, and no word is selected by two rows. -/
def Obligations.DecoderAgreesWithTheOpcodeMap : Prop :=
  (∀ (w : Word) (r : OpcodeRow), r ∈ opcodeRows → r.selects w = true →
    ∃ i, decodeWord w = some i ∧ i.mnemonic = r.mnemonic) ∧
  (∀ w : Word, supportedWord w = false → decodeWord w = none) ∧
  (∀ (w : Word) (r q : OpcodeRow), r ∈ opcodeRows → q ∈ opcodeRows → r.selects w = true → q.selects w = true → r = q)

/-- The words that decode to nothing are exactly those of the classes that 30_encoding.md R45 lists (its two counts are
not stated here). -/
def Obligations.UndecodedWordsAreTheListedClasses : Prop := ∀ w : Word, decodeWord w = none ↔ UnsupportedClass w

/-! ### Fetch and step -/

/-- The fetched word is two bytes, the one at pc the high byte (20_memory.md R31), each address reduced modulo 4096 on
its own (R29, the spec's decision D3, log 4): pc = 0x0FFF joins bytes 0xFFF and 0x000. -/
def Obligations.FetchJoinsTwoBytesBigEndian : Prop :=
  ∀ s : State, s.fetch.toNat =
    256 * (s.mem.read (s.pc.toNat % 4096)).toNat + (s.mem.read ((s.pc.toNat + 1) % 4096)).toNat

/-- A step runs the decoded instruction: when the word at pc decodes to i, `step` is `exec i` of the state with pc moved
past the word by 2, modulo 2^16, and nothing else changed (40_tick_driver.md R50). -/
def Obligations.StepRunsTheDecodedInstruction : Prop :=
  ∀ (s : State) (i : Instr), decodeWord s.fetch = some i →
    step s = exec i s.advance ∧ s.advance.pc.toNat = (s.pc.toNat + 2) % 65536 ∧ OnlyChanges [.pc] s s.advance

/-- A word placed where the step fetches runs: with memory in canonical form, `withFetchWord` makes the very next step run
the instruction that the opcode table's word decodes to, and changes only the two bytes at pc (log 17; the canonical form is
log 20). -/
def Obligations.PlacedWordIsTheOneThatRuns : Prop :=
  ∀ (s : State) (nbits w : Nat) (i : Instr), s.mem.wf = true → decodeTableWord nbits w = some i →
    step (s.withFetchWord nbits w) = exec i (s.withFetchWord nbits w).advance ∧
    OnlyChanges [.mem] s (s.withFetchWord nbits w) ∧
    ∀ a, eff a ≠ eff s.pc.toNat → eff a ≠ eff (s.pc.toNat + 1) → (s.withFetchWord nbits w).byteAt a = s.byteAt a

/-- R102: `tick_cpu` on a word of a class of R45 raises `UnsupportedOpcode(w)` with the word fetched at pc, and the state
after the command is the state before it. -/
def Obligations.UnsupportedWordRaisesItsError : Prop :=
  ∀ s : State, UnsupportedClass s.fetch →
    step s = .fault (.unsupportedOpcode s.fetch) ∧
    command .tickCpu s = (s, .err (.unsupportedOpcode s.fetch))

/-- Every supported word executes: a step answers a next state unless the word is a CALL on a full stack or a RET on an
empty one (60_exceptions.md R101, R106). -/
def Obligations.SupportedWordsExecute : Prop :=
  ∀ s : State, supportedWord s.fetch = true →
    (∀ nnn, decodeWord s.fetch = some (.call nnn) → s.sp.val ≠ 16) →
    (decodeWord s.fetch = some .ret → s.sp.val ≠ 0) →
    s.CanStep

/-! ### Errors -/

/-- CALL on a full stack and RET on an empty one are the only instructions that raise, each only its own error, and no
instruction and no step is refused (60_exceptions.md R106, which the spec marks as derived). -/
def Obligations.OnlyCallAndRetRaise : Prop :=
  (∀ (i : Instr) (s : State) (e : Fault), exec i s = .fault e ↔
    (∃ nnn, i = .call nnn ∧ s.sp.val = 16 ∧ e = .stackOverflow) ∨
    (i = .ret ∧ s.sp.val = 0 ∧ e = .stackUnderflow)) ∧
  (∀ (i : Instr) (s : State) (r : Refusal), exec i s ≠ .refused r) ∧
  (∀ (s : State) (r : Refusal), step s ≠ .refused r)

/-- R103: CALL raises StackOverflow when SP = 16; the state after the command is the state before it, so no entry is
written, SP stays 16 and pc stays at the CALL. -/
def Obligations.CallOnFullStackRaisesOverflow : Prop :=
  ∀ (s : State) (nnn : Addr12), s.sp.val = 16 →
    exec (.call nnn) s = .fault .stackOverflow ∧
    (decodeWord s.fetch = some (.call nnn) → command .tickCpu s = (s, .err .stackOverflow))

/-- R104: RET raises StackUnderflow when SP = 0; the state after the command is the state before it, so SP stays 0 and
pc stays at the RET. -/
def Obligations.RetOnEmptyStackRaisesUnderflow : Prop :=
  ∀ s : State, s.sp.val = 0 →
    exec .ret s = .fault .stackUnderflow ∧
    (decodeWord s.fetch = some .ret → command .tickCpu s = (s, .err .stackUnderflow))

/-- A command that answers an error leaves the whole state as it was, and issued again, any number of times, answers the
same error and still changes nothing (40_tick_driver.md R51, the spec's decision D6 and a derived sentence; log 13). -/
def Obligations.ErrorsChangeNothingAndRepeat : Prop :=
  ∀ (c : Command) (s : State) (e : Fault), (command c s).2 = .err e →
    (command c s).1 = s ∧ ∀ n, runCommands (List.replicate n c) s = (s, List.replicate n (.err e))

/-! ### Control flow -/

/-- NOP has no effect (41_control_flow.md R59): the instruction returns its state, and as a step it moves pc by 2 and
changes nothing else. -/
def Obligations.NopOnlyAdvances : Prop :=
  Selects 0x0000#16 0xFFFF#16 (fun _ => .nop) ∧
  (∀ s : State, exec .nop s = .next s) ∧
  (∀ s : State, decodeWord s.fetch = some .nop → step s = .next s.advance)

/-- R60: JMP nnn sets pc to nnn, zero-extended, and changes nothing else; a jump to its own address leaves the whole state
unchanged. -/
def Obligations.JmpSetsPc : Prop :=
  Selects 0x1000#16 0xF000#16 (fun w => .jmp (fieldNnn w)) ∧
  (∀ (s : State) (nnn : Addr12), ∃ t, exec (.jmp nnn) s = .next t ∧ t.pc.toNat = nnn.toNat ∧ OnlyChanges [.pc] s t) ∧
  (∀ (s : State) (nnn : Addr12), decodeWord s.fetch = some (.jmp nnn) → nnn.toNat = s.pc.toNat → step s = .next s)

/-- R61: CALL nnn with fewer than 16 entries pushes pc, which holds ipc + 2 (so a CALL at 0xFFFE pushes 0x0000), and sets
pc to nnn; every other entry and every other part of the state is unchanged. With 16 entries it raises StackOverflow. A CALL to its own address, from an empty stack,
pushes 16 times and raises StackOverflow at the 17th execution. -/
def Obligations.CallPushesTheReturnAddress : Prop :=
  Selects 0x2000#16 0xF000#16 (fun w => .call (fieldNnn w)) ∧
  (∀ (s : State) (nnn : Addr12) (h : s.sp.val < 16), ∃ t, exec (.call nnn) s = .next t ∧
    t.stack[s.sp.val] = s.pc ∧ (∀ (k : Nat) (hk : k < 16), k ≠ s.sp.val → t.stack[k] = s.stack[k]) ∧
    t.sp.val = s.sp.val + 1 ∧ t.pc.toNat = nnn.toNat ∧ OnlyChanges [.pc, .stack] s t) ∧
  (∀ (s : State) (nnn : Addr12), s.sp.val = 16 → exec (.call nnn) s = .fault .stackOverflow) ∧
  (∀ s : State, s.advance.pc.toNat = (s.pc.toNat + 2) % 65536) ∧
  (∀ (s : State) (nnn : Addr12), decodeWord s.fetch = some (.call nnn) → nnn.toNat = s.pc.toNat → s.sp.val = 0 →
    ∃ t, runCommands (List.replicate 16 .tickCpu) s = (t, List.replicate 16 .ok) ∧ t.sp.val = 16 ∧
      command .tickCpu t = (t, .err .stackOverflow))

/-- RET with at least one entry sets pc to the top entry and takes it off; the entry itself is kept (41_control_flow.md
R62; that a pop clears nothing is the spec's decision D25, log 18). -/
def Obligations.RetPopsTheReturnAddress : Prop :=
  Selects 0x00EE#16 0xFFFF#16 (fun _ => .ret) ∧
  (∀ (s : State) (h : 0 < s.sp.val), ∃ t, exec .ret s = .next t ∧
    t.pc = s.stack[s.sp.val - 1]'(by have := s.sp.isLt; omega) ∧ t.sp.val = s.sp.val - 1 ∧ t.stack = s.stack ∧
    OnlyChanges [.pc, .stack] s t)

/-- A RET reached with the stack as a CALL left it, whatever the subroutine did to everything else, returns to the
instruction after the CALL and restores SP (41_control_flow.md R61, R62; the source's example W5). -/
def Obligations.RetUndoesCall : Prop :=
  ∀ (s t u : State) (nnn : Addr12), exec (.call nnn) s = .next t → SamePart t u .stack →
    ∃ r, exec .ret u = .next r ∧ r.pc = s.pc ∧ r.sp = s.sp ∧ OnlyChanges [.pc, .stack] u r

/-- JMP_V0 nnn sets pc to nnn + V0, kept in 16 bits (at most 0x10FE, so nothing is lost), and changes nothing else
(41_control_flow.md R63; that pc keeps bit 12 is the spec's decision D4, log 4). -/
def Obligations.JmpV0AddsVZero : Prop :=
  Selects 0xB000#16 0xF000#16 (fun w => .jmpV0 (fieldNnn w)) ∧
  (∀ (s : State) (nnn : Addr12), ∃ t, exec (.jmpV0 nnn) s = .next t ∧
    t.pc.toNat = nnn.toNat + (s.getV 0).toNat ∧ OnlyChanges [.pc] s t)

/-- R65, R66, R67, R68: each register skip adds 2 to pc, modulo 2^16, exactly when its comparison holds, and changes
nothing else. -/
def Obligations.RegisterSkipsAddTwoWhenTheyHold : Prop :=
  (Selects 0x3000#16 0xF000#16 (fun w => .skipEqNn (fieldX w) (fieldNn w)) ∧
   ∀ (s : State) (x : RegIdx) (nn : Byte), ∃ t, exec (.skipEqNn x nn) s = .next t ∧ OnlyChanges [.pc] s t ∧
    (s.getV x = nn → t.pc.toNat = (s.pc.toNat + 2) % 65536) ∧ (s.getV x ≠ nn → t.pc = s.pc)) ∧
  (Selects 0x4000#16 0xF000#16 (fun w => .skipNeqNn (fieldX w) (fieldNn w)) ∧
   ∀ (s : State) (x : RegIdx) (nn : Byte), ∃ t, exec (.skipNeqNn x nn) s = .next t ∧ OnlyChanges [.pc] s t ∧
    (s.getV x ≠ nn → t.pc.toNat = (s.pc.toNat + 2) % 65536) ∧ (s.getV x = nn → t.pc = s.pc)) ∧
  (Selects 0x5000#16 0xF00F#16 (fun w => .skipEqVy (fieldX w) (fieldY w)) ∧
   ∀ (s : State) (x y : RegIdx), ∃ t, exec (.skipEqVy x y) s = .next t ∧ OnlyChanges [.pc] s t ∧
    (s.getV x = s.getV y → t.pc.toNat = (s.pc.toNat + 2) % 65536) ∧ (s.getV x ≠ s.getV y → t.pc = s.pc)) ∧
  (Selects 0x9000#16 0xF00F#16 (fun w => .skipNeqVy (fieldX w) (fieldY w)) ∧
   ∀ (s : State) (x y : RegIdx), ∃ t, exec (.skipNeqVy x y) s = .next t ∧ OnlyChanges [.pc] s t ∧
    (s.getV x ≠ s.getV y → t.pc.toNat = (s.pc.toNat + 2) % 65536) ∧ (s.getV x = s.getV y → t.pc = s.pc))

/-! ### Register and arithmetic -/

/-- R72, R73, R74: SET_NN, ADD_NN and SET_VY write V[x] and no other register (VF only where x = F), ADD_NN modulo 256,
and change nothing else; pc is left at ipc + 2. -/
def Obligations.LoadsAndAddImmediateWriteVx : Prop :=
  (Selects 0x6000#16 0xF000#16 (fun w => .setNn (fieldX w) (fieldNn w)) ∧
   ∀ (s : State) (x : RegIdx) (nn : Byte), ∃ t, exec (.setNn x nn) s = .next t ∧ t.getV x = nn ∧
    OnlyRegs (· = x) s t ∧ OnlyChanges [.regs] s t) ∧
  (Selects 0x7000#16 0xF000#16 (fun w => .addNn (fieldX w) (fieldNn w)) ∧
   ∀ (s : State) (x : RegIdx) (nn : Byte), ∃ t, exec (.addNn x nn) s = .next t ∧
    (t.getV x).toNat = ((s.getV x).toNat + nn.toNat) % 256 ∧ OnlyRegs (· = x) s t ∧ OnlyChanges [.regs] s t) ∧
  (Selects 0x8000#16 0xF00F#16 (fun w => .setVy (fieldX w) (fieldY w)) ∧
   ∀ (s : State) (x y : RegIdx), ∃ t, exec (.setVy x y) s = .next t ∧ t.getV x = s.getV y ∧
    OnlyRegs (· = x) s t ∧ OnlyChanges [.regs] s t)

/-- R76, R77: AND and XOR write V[x], bit by bit, and no other register (VF only where x = F), and change nothing else. -/
def Obligations.AndXorWriteVxBitwise : Prop :=
  (Selects 0x8002#16 0xF00F#16 (fun w => .and (fieldX w) (fieldY w)) ∧
   ∀ (s : State) (x y : RegIdx), ∃ t, exec (.and x y) s = .next t ∧
    (∀ k, (t.getV x).getLsbD k = ((s.getV x).getLsbD k && (s.getV y).getLsbD k)) ∧
    OnlyRegs (· = x) s t ∧ OnlyChanges [.regs] s t) ∧
  (Selects 0x8003#16 0xF00F#16 (fun w => .xor (fieldX w) (fieldY w)) ∧
   ∀ (s : State) (x y : RegIdx), ∃ t, exec (.xor x y) s = .next t ∧
    (∀ k, (t.getV x).getLsbD k = ((s.getV x).getLsbD k ^^ (s.getV y).getLsbD k)) ∧
    OnlyRegs (· = x) s t ∧ OnlyChanges [.regs] s t)

/-- OR writes V[x], bit by bit, and no other register (42_alu.md R75; that VF is not reset is a sentence the spec marks
as derived, log 15). -/
def Obligations.OrWritesVxBitwise : Prop :=
  Selects 0x8001#16 0xF00F#16 (fun w => .or (fieldX w) (fieldY w)) ∧
   ∀ (s : State) (x y : RegIdx), ∃ t, exec (.or x y) s = .next t ∧
    (∀ k, (t.getV x).getLsbD k = ((s.getV x).getLsbD k || (s.getV y).getLsbD k)) ∧
    OnlyRegs (· = x) s t ∧ OnlyChanges [.regs] s t

/-- ADD_VY (42_alu.md R78): VF ends holding the carry of the mathematical sum, every x and y included; where x is not F,
V[x] ends holding the sum modulo 256; nothing else changes. That the flag is written last, so that it remains where
x = F, is the spec's decision D8 (R70, log 5). -/
def Obligations.AddVyWritesSumAndCarry : Prop :=
  Selects 0x8004#16 0xF00F#16 (fun w => .addVy (fieldX w) (fieldY w)) ∧
   ∀ (s : State) (x y : RegIdx), ∃ t, exec (.addVy x y) s = .next t ∧
    (t.getV VF).toNat = (if (s.getV x).toNat + (s.getV y).toNat > 255 then 1 else 0) ∧
    (x ≠ VF → (t.getV x).toNat = ((s.getV x).toNat + (s.getV y).toNat) % 256) ∧
    OnlyRegs (fun r => r = x ∨ r = VF) s t ∧ OnlyChanges [.regs] s t

/-- SUB_VY and RSUB_VY (42_alu.md R79, R80): VF ends holding 1 exactly when there is no borrow, equality included; where x
is not F, V[x] ends holding the difference modulo 256; nothing else changes. That the flag is written last is the
spec's decision D8 (R70, log 5). -/
def Obligations.SubtractionsWriteDifferenceAndNoBorrow : Prop :=
  (Selects 0x8005#16 0xF00F#16 (fun w => .subVy (fieldX w) (fieldY w)) ∧
   ∀ (s : State) (x y : RegIdx), ∃ t, exec (.subVy x y) s = .next t ∧
    (t.getV VF).toNat = (if (s.getV y).toNat ≤ (s.getV x).toNat then 1 else 0) ∧
    (x ≠ VF → (t.getV x).toNat = ((s.getV x).toNat + 256 - (s.getV y).toNat) % 256) ∧
    OnlyRegs (fun r => r = x ∨ r = VF) s t ∧ OnlyChanges [.regs] s t) ∧
  (Selects 0x8007#16 0xF00F#16 (fun w => .rsubVy (fieldX w) (fieldY w)) ∧
   ∀ (s : State) (x y : RegIdx), ∃ t, exec (.rsubVy x y) s = .next t ∧
    (t.getV VF).toNat = (if (s.getV x).toNat ≤ (s.getV y).toNat then 1 else 0) ∧
    (x ≠ VF → (t.getV x).toNat = ((s.getV y).toNat + 256 - (s.getV x).toNat) % 256) ∧
    OnlyRegs (fun r => r = x ∨ r = VF) s t ∧ OnlyChanges [.regs] s t)

/-- The shifts under SHIFT_SRC = VX (42_alu.md R71, R81, R82): the source is V[x], whatever y is; VF ends holding the bit
shifted out and, where x is not F, V[x] holds half, or twice modulo 256. The setting is the block's (log 2); the flag
last is decision D8 (log 5). -/
def Obligations.ShiftsReadVxUnderVx : Prop :=
  (Selects 0x8006#16 0xF00F#16 (fun w => .rshift (fieldX w) (fieldY w)) ∧
   ∀ (s : State) (x y : RegIdx), s.params.shiftSrc = .vx → ∃ t, exec (.rshift x y) s = .next t ∧
    (t.getV VF).toNat = (s.getV x).toNat % 2 ∧ (x ≠ VF → (t.getV x).toNat = (s.getV x).toNat / 2) ∧
    OnlyRegs (fun r => r = x ∨ r = VF) s t ∧ OnlyChanges [.regs] s t) ∧
  (Selects 0x8008#16 0xF00F#16 (fun w => .lshift (fieldX w) (fieldY w)) ∧
   ∀ (s : State) (x y : RegIdx), s.params.shiftSrc = .vx → ∃ t, exec (.lshift x y) s = .next t ∧
    (t.getV VF).toNat = (s.getV x).toNat / 128 ∧ (x ≠ VF → (t.getV x).toNat = (s.getV x).toNat * 2 % 256) ∧
    OnlyRegs (fun r => r = x ∨ r = VF) s t ∧ OnlyChanges [.regs] s t)

/-- The shifts under SHIFT_SRC = VY (42_alu.md R71, R81, R82): the source is V[y], which itself is unchanged unless y is x
or F; everything else as under VX (log 2, 5). -/
def Obligations.ShiftsReadVyUnderVy : Prop :=
  (∀ (s : State) (x y : RegIdx), s.params.shiftSrc = .vy → ∃ t, exec (.rshift x y) s = .next t ∧
    (t.getV VF).toNat = (s.getV y).toNat % 2 ∧ (x ≠ VF → (t.getV x).toNat = (s.getV y).toNat / 2) ∧
    OnlyRegs (fun r => r = x ∨ r = VF) s t ∧ OnlyChanges [.regs] s t) ∧
  (∀ (s : State) (x y : RegIdx), s.params.shiftSrc = .vy → ∃ t, exec (.lshift x y) s = .next t ∧
    (t.getV VF).toNat = (s.getV y).toNat / 128 ∧ (x ≠ VF → (t.getV x).toNat = (s.getV y).toNat * 2 % 256) ∧
    OnlyRegs (fun r => r = x ∨ r = VF) s t ∧ OnlyChanges [.regs] s t)

/-- RAND writes the draw masked by nn into V[x] and nothing else, VF only where x = F; the next execution draws afresh
(42_alu.md R83, the spec's decision D19). The draw is the free value `Config.freeDraw` of the model's own draw counter
(log 3), so this holds for every draw; nn = 0 gives 0 whatever the draw. -/
def Obligations.RandMasksTheDraw : Prop :=
  Selects 0xC000#16 0xF000#16 (fun w => .rand (fieldX w) (fieldNn w)) ∧
   ∀ (s : State) (x : RegIdx) (nn : Byte), ∃ t, exec (.rand x nn) s = .next t ∧
    (∀ k, (t.getV x).getLsbD k = ((Config.freeDraw s.drawCount).getLsbD k && nn.getLsbD k)) ∧
    (nn = 0 → t.getV x = 0) ∧ t.drawCount = s.drawCount + 1 ∧
    OnlyRegs (· = x) s t ∧ OnlyChanges [.regs, .draws] s t

/-! ### Index register and memory -/

/-- R85, R87: SET_I sets I to nnn, zero-extended; SET_I_FONT sets I to five times the low nibble of V[x] (font_base is 0);
neither changes anything else. -/
def Obligations.SetIAndFontWriteIndex : Prop :=
  (Selects 0xA000#16 0xF000#16 (fun w => .setI (fieldNnn w)) ∧
   ∀ (s : State) (nnn : Addr12), ∃ t, exec (.setI nnn) s = .next t ∧ t.i.toNat = nnn.toNat ∧ OnlyChanges [.i] s t) ∧
  (Selects 0xF029#16 0xF0FF#16 (fun w => .setIFont (fieldX w)) ∧
   ∀ (s : State) (x : RegIdx), ∃ t, exec (.setIFont x) s = .next t ∧
    t.i.toNat = 5 * ((s.getV x).toNat % 16) ∧ OnlyChanges [.i] s t)

/-- ADD_I adds V[x] to I modulo 2^16 and changes nothing else (43_index_memory.md R86; that VF is not written is a sentence
the spec marks as derived, log 15). -/
def Obligations.AddIAddsModulo65536 : Prop :=
  Selects 0xF01E#16 0xF0FF#16 (fun w => .addI (fieldX w)) ∧
   ∀ (s : State) (x : RegIdx), ∃ t, exec (.addI x) s = .next t ∧
    t.i.toNat = (s.i.toNat + (s.getV x).toNat) % 65536 ∧ OnlyChanges [.i] s t

/-- BCD writes the decimal digits of V[x], hundreds, tens and units, at I, I + 1 and I + 2 and no other byte, for every I
(43_index_memory.md R88; that each address wraps at 4096 is decision D3, log 4). Memory is in the model's canonical form
(log 20). -/
def Obligations.BcdStoresThreeDigits : Prop :=
  Selects 0xF033#16 0xF0FF#16 (fun w => .bcd (fieldX w)) ∧
   ∀ (s : State) (x : RegIdx), s.mem.wf = true → ∃ t, exec (.bcd x) s = .next t ∧
    (t.byteAt (s.dataAddr 0)).toNat = (s.getV x).toNat / 100 ∧
    (t.byteAt (s.dataAddr 1)).toNat = (s.getV x).toNat / 10 % 10 ∧
    (t.byteAt (s.dataAddr 2)).toNat = (s.getV x).toNat % 10 ∧
    (∀ a, OutsideData s 3 a → t.byteAt a = s.byteAt a) ∧ OnlyChanges [.mem] s t

/-- STORE writes V0 to V[x] at I to I + x and no other byte, for every x and every I (43_index_memory.md R89; that each
address wraps at 4096 is decision D3, log 4; that I is unchanged the spec marks as derived, log 15). Memory is in the
model's canonical form (log 20). -/
def Obligations.StoreWritesRegistersToMemory : Prop :=
  Selects 0xF055#16 0xF0FF#16 (fun w => .store (fieldX w)) ∧
   ∀ (s : State) (x : RegIdx), s.mem.wf = true → ∃ t, exec (.store x) s = .next t ∧
    (∀ k : RegIdx, k ≤ x → t.byteAt (s.dataAddr k.val) = s.getV k) ∧
    (∀ a, OutsideData s (x.val + 1) a → t.byteAt a = s.byteAt a) ∧ OnlyChanges [.mem] s t

/-- LOAD reads V0 to V[x] from I to I + x and changes no other register, for every x, VF included (43_index_memory.md R90;
each address wraps at 4096: decision D3, log 4; I is unchanged: log 15). -/
def Obligations.LoadReadsRegistersFromMemory : Prop :=
  Selects 0xF065#16 0xF0FF#16 (fun w => .load (fieldX w)) ∧
   ∀ (s : State) (x : RegIdx), ∃ t, exec (.load x) s = .next t ∧
    (∀ k : RegIdx, k ≤ x → t.getV k = s.mem.read ((s.i.toNat + k.val) % 4096)) ∧
    OnlyRegs (· ≤ x) s t ∧ OnlyChanges [.regs] s t

/-- A LOAD from the address of a STORE, with memory and I as the STORE left them and the registers anything at all, restores
the registers stored (43_index_memory.md R90's round trip, the source's W7; it rests on log 4 and 15, and on memory in the
model's canonical form, log 20). -/
def Obligations.LoadAfterStoreRestores : Prop :=
  ∀ (s t u : State) (x : RegIdx), s.mem.wf = true → exec (.store x) s = .next t →
    SamePart t u .mem → SamePart t u .i →
    ∃ r, exec (.load x) u = .next r ∧ ∀ k : RegIdx, k ≤ x → r.getV k = s.getV k

/-- Fetch is coherent: after a STORE, a fetch whose pc points at two of the bytes it wrote sees them, with nothing between
(20_memory.md R39, which the spec marks as derived; it rests on log 4, and on memory in the model's canonical form, log
20). -/
def Obligations.FetchSeesStoredBytes : Prop :=
  ∀ (s t : State) (x k : RegIdx) (h : k.val + 1 ≤ x.val), s.mem.wf = true → exec (.store x) s = .next t →
    eff t.pc.toNat = eff (s.dataAddr k.val) →
    t.fetch = joinBytes (s.getV k) (s.getV ⟨k.val + 1, by have := x.isLt; omega⟩)

/-! ### Display -/

/-- R91: CLS turns every pixel off and changes nothing else, VF included; `get_display` then returns 2048 times false. -/
def Obligations.ClsClearsTheScreen : Prop :=
  Selects 0x00E0#16 0xFFFF#16 (fun _ => .cls) ∧
   ∀ s : State, ∃ t, exec .cls s = .next t ∧ (∀ u v, t.pixel u v = false) ∧
    t.display.length = 2048 ∧ (∀ p ∈ t.display, p = false) ∧ OnlyChanges [.fb] s t

/-- DRAW toggles exactly the pixels that a set sprite bit lands on, each coordinate wrapping on its own, and VF ends holding
1 exactly when one of them was lit, else 0; no other register, no byte of memory and nothing else changes; n = 0, x = F
and y = F included (44_display.md R92). The bit order and n = 0 are decision D17, the orientation D18 (log 11), the
address wrap D3 (log 4). -/
def Obligations.DrawXorsTheSprite : Prop :=
  Selects 0xD000#16 0xF000#16 (fun w => .draw (fieldX w) (fieldY w) (fieldN w)) ∧
   ∀ (s : State) (x y : RegIdx) (n : Fin 16), ∃ t, exec (.draw x y n) s = .next t ∧
    (∀ u v, SpriteCovers s (s.getV x) (s.getV y) n.val u v → t.pixel u v = !s.pixel u v) ∧
    (∀ u v, ¬ SpriteCovers s (s.getV x) (s.getV y) n.val u v → t.pixel u v = s.pixel u v) ∧
    ((∃ u v, SpriteCovers s (s.getV x) (s.getV y) n.val u v ∧ s.pixel u v = true) → t.getV VF = 1) ∧
    ((¬ ∃ u v, SpriteCovers s (s.getV x) (s.getV y) n.val u v ∧ s.pixel u v = true) → t.getV VF = 0) ∧
    OnlyRegs (· = VF) s t ∧ OnlyChanges [.regs, .fb] s t

/-- Two DRAWs of the same sprite at the same place restore the framebuffer, and the second writes VF = 1 exactly when some
pixel it touches was off before the first; neither coordinate register is VF (44_display.md R92, a corner case the spec
marks as derived; log 4, 11). -/
def Obligations.DrawingTwiceRestoresTheScreen : Prop :=
  ∀ (s t : State) (x y : RegIdx) (n : Fin 16), x ≠ VF → y ≠ VF → exec (.draw x y n) s = .next t →
    ∃ r, exec (.draw x y n) t = .next r ∧ r.fb = s.fb ∧
      (r.getV VF = 1 ↔ ∃ u v, SpriteCovers s (s.getV x) (s.getV y) n.val u v ∧ s.pixel u v = false)

/-! ### Keypad and timers -/

/-- SKIP_KEY and SKIP_NKEY add 2 to pc, modulo 2^16, exactly when key V[x] mod 16 is pressed, respectively released, and
change nothing else (45_keypad_timers.md R94, R95; the low nibble is the spec's decision D9, R93, log 6). -/
def Obligations.KeySkipsReadTheKeypad : Prop :=
  (Selects 0xE09E#16 0xF0FF#16 (fun w => .skipKey (fieldX w)) ∧
   ∀ (s : State) (x : RegIdx) (k : KeyIdx), k.val = (s.getV x).toNat % 16 →
    ∃ t, exec (.skipKey x) s = .next t ∧ OnlyChanges [.pc] s t ∧
    (s.getKey k = true → t.pc.toNat = (s.pc.toNat + 2) % 65536) ∧ (s.getKey k = false → t.pc = s.pc)) ∧
  (Selects 0xE0A1#16 0xF0FF#16 (fun w => .skipNkey (fieldX w)) ∧
   ∀ (s : State) (x : RegIdx) (k : KeyIdx), k.val = (s.getV x).toNat % 16 →
    ∃ t, exec (.skipNkey x) s = .next t ∧ OnlyChanges [.pc] s t ∧
    (s.getKey k = false → t.pc.toNat = (s.pc.toNat + 2) % 65536) ∧ (s.getKey k = true → t.pc = s.pc))

/-- R96, R99: GET_DT copies DT to V[x]; SET_ST copies V[x] to ST, so that `sound_active` is false at once when V[x] is 0 and
true otherwise; neither changes anything else. -/
def Obligations.GetDtAndSetStCopy : Prop :=
  (Selects 0xF007#16 0xF0FF#16 (fun w => .getDt (fieldX w)) ∧
   ∀ (s : State) (x : RegIdx), ∃ t, exec (.getDt x) s = .next t ∧ t.getV x = s.dt ∧
    OnlyRegs (· = x) s t ∧ OnlyChanges [.regs] s t) ∧
  (Selects 0xF018#16 0xF0FF#16 (fun w => .setSt (fieldX w)) ∧
   ∀ (s : State) (x : RegIdx), ∃ t, exec (.setSt x) s = .next t ∧ t.st = s.getV x ∧
    (t.soundActive = true ↔ s.getV x ≠ 0) ∧ OnlyChanges [.st] s t)

/-- SET_DT copies V[x] to DT and changes nothing else; from there the k-th `tick_frame` leaves V[x] - k, floored at 0, so
exactly V[x] of them bring DT to 0 (45_keypad_timers.md R98, whose count the spec marks as derived). -/
def Obligations.SetDtThenFramesCountDown : Prop :=
  Selects 0xF015#16 0xF0FF#16 (fun w => .setDt (fieldX w)) ∧
   ∀ (s : State) (x : RegIdx), ∃ t, exec (.setDt x) s = .next t ∧ t.dt = s.getV x ∧ OnlyChanges [.dt] s t ∧
    ∀ k : Nat, (runCommands (List.replicate k .tickFrame) t).1.dt.toNat = (s.getV x).toNat - k ∧
      OnlyChanges [.dt, .st] t (runCommands (List.replicate k .tickFrame) t).1

/-- WAIT_KEY (45_keypad_timers.md R97; the latch's details are the spec's decision D10, log 7): with a key recorded it writes
the key's number to V[x], clears the latch and completes; while it waits it stays at its own address, pc - 2; if the
latch is not armed it arms it for x, recording no key, a key already held included. -/
def Obligations.WaitKeyArmsWaitsAndResolves : Prop :=
  Selects 0xF00A#16 0xF0FF#16 (fun w => .waitKey (fieldX w)) ∧
  (∀ (s : State) (x : RegIdx) (k : KeyIdx), s.waitActive = true → s.waitKey = some k →
    ∃ t, exec (.waitKey x) s = .next t ∧ (t.getV x).toNat = k.val ∧
      t.waitActive = false ∧ t.waitReg = 0 ∧ t.waitKey = none ∧
      OnlyRegs (· = x) s t ∧ OnlyChanges [.regs, .latch] s t) ∧
  (∀ (s : State) (x : RegIdx), s.waitActive = true → s.waitKey = none →
    ∃ t, exec (.waitKey x) s = .next t ∧ t.pc = s.pc - 2 ∧ OnlyChanges [.pc] s t) ∧
  (∀ (s : State) (x : RegIdx), s.waitActive = false →
    ∃ t, exec (.waitKey x) s = .next t ∧ t.pc = s.pc - 2 ∧
      t.waitActive = true ∧ t.waitReg = x ∧ t.waitKey = none ∧ OnlyChanges [.pc, .latch] s t)

/-- A whole key wait (45_keypad_timers.md R97's example, W6): from a WAIT_KEY not yet begun, any number of `tick_cpu` leave pc
in place; then the press of a key that was up and one more `tick_cpu` put its number into V[x], move pc by 2 and leave
the latch clear, every command answering without an error. It rests on decision D10 (log 7). -/
def Obligations.KeyPressEndsTheWait : Prop :=
  ∀ (s : State) (x : RegIdx) (k : KeyIdx) (n : Nat),
    decodeWord s.fetch = some (.waitKey x) → s.waitActive = false → s.getKey k = false →
    (runCommands (List.replicate (n + 1) .tickCpu) s).1.pc = s.pc ∧
    ∃ t, (runCommands (List.replicate (n + 1) .tickCpu ++ [.keypress (keyByte k) true, .tickCpu]) s).1 = t ∧
      (t.getV x).toNat = k.val ∧ t.pc = s.pc + 2 ∧ t.waitActive = false ∧ t.waitKey = none ∧ t.getKey k = true ∧
      OnlyRegs (· = x) s t ∧ OnlyChanges [.regs, .pc, .latch, .key] s t ∧
      NoError (List.replicate (n + 1) .tickCpu ++ [.keypress (keyByte k) true, .tickCpu]) s

/-! ### The host's commands -/

/-- R52: `tick_frame` decrements each timer by one, floored at zero, and does nothing else; it answers nothing and cannot
fail. -/
def Obligations.TickFrameDecrementsTheTimers : Prop :=
  ∀ s : State, ∃ t, command .tickFrame s = (t, .none) ∧
    t.dt.toNat = s.dt.toNat - 1 ∧ t.st.toNat = s.st.toNat - 1 ∧ OnlyChanges [.dt, .st] s t

/-- `keypress` (40_tick_driver.md R54): sets the key's state and no other key's, and records the key in the latch exactly when
it was up and is pressed while the latch is armed and has recorded none; an index of 16 or more does nothing. The first
press kept is decision D10, the index D11 (log 6, 7). -/
def Obligations.KeypressSetsTheKeyAndRecordsThePress : Prop :=
  (∀ (s : State) (k : KeyIdx) (p : Bool), ∃ t, command (.keypress (keyByte k) p) s = (t, .none) ∧
    t.getKey k = p ∧ (∀ j, j ≠ k → t.getKey j = s.getKey j) ∧
    (p = true ∧ s.getKey k = false ∧ s.waitActive = true ∧ s.waitKey = none → t.waitKey = some k) ∧
    (¬ (p = true ∧ s.getKey k = false ∧ s.waitActive = true ∧ s.waitKey = none) → t.waitKey = s.waitKey) ∧
    t.waitActive = s.waitActive ∧ t.waitReg = s.waitReg ∧ OnlyChanges [.key, .latch] s t) ∧
  (∀ (s : State) (index : Byte) (p : Bool), 16 ≤ index.toNat → command (.keypress index p) s = (s, .none))

/-- `load` (40_tick_driver.md R53): it copies the first 3584 bytes of the ROM to 0x200 and up, changes no other byte, clears the
latch and changes nothing else, pc included; only under REJECT does a longer ROM answer RomTooLarge, with the state
unchanged (60_exceptions.md R105). The policy is the block's setting (D12, held as log 2 says), the latch and pc decision
D13 (log 8). Memory is in the model's canonical form (log 20). -/
def Obligations.LoadCopiesTheRom : Prop :=
  (∀ (s : State) (rom : List Byte), s.mem.wf = true → (s.params.loadPolicy = .truncate ∨ rom.length ≤ 3584) →
    ∃ t, command (.load rom) s = (t, .ok) ∧
    (∀ (k : Nat) (hk : k < rom.length), k < 3584 → t.byteAt (0x200 + k) = rom[k]) ∧
    (∀ a, a < 4096 → (a < 0x200 ∨ 0x200 + rom.length ≤ a) → t.byteAt a = s.byteAt a) ∧
    t.waitActive = false ∧ t.waitReg = 0 ∧ t.waitKey = none ∧ OnlyChanges [.mem, .latch] s t) ∧
  (∀ (s : State) (rom : List Byte), s.params.loadPolicy = .reject → 3584 < rom.length →
    command (.load rom) s = (s, .err .romTooLarge))

/-- `reset` (70_reset_and_hazards.md R117), from any state and for any FONT: every field of the Machine State holds its reset
value, memory the block's FONT at 0x000 to 0x04F and zero elsewhere; a second `reset` changes nothing. Memory outside the
FONT is the spec's decision D14, FONT a parameter D16 (log 9, 10). The model's own settings and draw counter stay (log
2, 3). -/
def Obligations.ResetCommandSetsEveryField : Prop :=
  ∀ s : State, ∃ t, command .reset s = (t, .none) ∧
    (∀ (a : Nat) (h : a < 80), t.byteAt a = s.params.font[a]) ∧ (∀ a, 80 ≤ a → a < 4096 → t.byteAt a = 0) ∧
    (∀ r, t.getV r = 0) ∧ t.i = 0 ∧ t.pc = 0x200#16 ∧ (∀ (k : Nat) (h : k < 16), t.stack[k] = 0) ∧ t.sp = 0 ∧
    t.dt = 0 ∧ t.st = 0 ∧ (∀ u v, t.pixel u v = false) ∧ (∀ k, t.getKey k = false) ∧
    t.waitActive = false ∧ t.waitReg = 0 ∧ t.waitKey = none ∧ t.params = s.params ∧ t.drawCount = s.drawCount ∧
    command .reset t = (t, .none)

/-- `State.reset` is the state that the command `reset` gives with the spec's settings: V0 to VF, I, SP, DT, ST are 0, pc is
0x200, the stack is empty, the screen dark, every key released, the latch clear (10_state.md R26); the FONT's glyph 0
stands at 0x000 (decision D16, log 10) and byte 0x200 is 0 (decision D14, log 9), so the first word is a NOP. -/
def Obligations.ResetStateHoldsTheResetValues : Prop :=
  (∀ r, State.reset.getV r = 0) ∧ State.reset.i = 0 ∧ State.reset.pc = 0x200#16 ∧ State.reset.sp = 0 ∧
  State.reset.stack = Vector.replicate 16 0 ∧ State.reset.dt = 0 ∧ State.reset.st = 0 ∧
  (∀ u v, State.reset.pixel u v = false) ∧ (∀ k, State.reset.getKey k = false) ∧
  State.reset.waitActive = false ∧ State.reset.waitReg = 0 ∧ State.reset.waitKey = none ∧
  State.reset.byteAt 0 = 0xF0 ∧ State.reset.byteAt 1 = 0x90 ∧ State.reset.byteAt 0x200 = 0 ∧
  decodeWord State.reset.fetch = some .nop ∧ State.reset.resetCommand = State.reset

/-- `get_display` (40_tick_driver.md R55) answers 2048 pixels, that of column x and row y at y * 64 + x, and changes nothing.
The orientation is the spec's decision D18 (log 11). -/
def Obligations.DisplayIsRowMajor : Prop :=
  ∀ s : State, ∃ l, command .getDisplay s = (s, .display l) ∧ l.length = 2048 ∧
    ∀ (u : Fin 64) (v : Fin 32), l[v.val * 64 + u.val]? = some (s.pixel u v)

/-- `sound_active` (40_tick_driver.md R56, the spec's decision D23, log 19): true exactly when ST is not 0; it is false after the
`tick_frame` that takes ST from 1 to 0 and after `reset`, still true after a `tick_frame` from 2 or more, and no `tick_cpu`
changes it unless the word at pc is a SET_ST. -/
def Obligations.SoundActiveFollowsTheSoundTimer : Prop :=
  (∀ s : State, s.soundActive = true ↔ s.st.toNat ≠ 0) ∧
  (∀ s : State, s.st.toNat = 1 → (command .tickFrame s).1.soundActive = false) ∧
  (∀ s : State, 2 ≤ s.st.toNat → (command .tickFrame s).1.soundActive = true) ∧
  (∀ s : State, (command .reset s).1.soundActive = false) ∧
  (∀ s : State, (∀ x, decodeWord s.fetch ≠ some (.setSt x)) → (command .tickCpu s).1.soundActive = s.soundActive)

/-! ### Whole-machine rules -/

/-- What each instruction may write, for all 35: no part of the state but those the spec's tables give it, and no V register
but those of the table in 10_state.md R15 (R17, R18, R20, R22, R23, R24, R25; 20_memory.md R33). WAIT_KEY writes a register
only when it resolves. That I is never changed by an access is marked derived in the spec (log 15); that the settings stay
is the model's clause (log 2, DESIGN CHOICE). -/
def Obligations.InstructionsWriteOnlyWhatTheSpecLists : Prop :=
  ∀ (i : Instr) (s t : State), exec i s = .next t →
    OnlyChanges (partsOf i) s t ∧ OnlyRegs (regsOf i) s t ∧
    (∀ x, i = .waitKey x → (s.waitActive = false ∨ s.waitKey = none) → SamePart s t .regs)

/-- `tick_cpu` does not write the keypad, and never decrements a timer: DT changes only in a SET_DT and ST only in a SET_ST,
each to the register it names (40_tick_driver.md R50, 10_state.md R22, R24). Nor does it write the settings: that clause is
the model's, which holds the open parameters of R7 in a constant field `params` of State (log 2, DESIGN CHOICE). -/
def Obligations.TicksLeaveKeysAndTimers : Prop :=
  ∀ s t : State, step s = .next t →
    SamePart s t .key ∧ t.params = s.params ∧
    (t.dt ≠ s.dt → ∃ x, decodeWord s.fetch = some (.setDt x) ∧ t.dt = s.getV x) ∧
    (t.st ≠ s.st → ∃ x, decodeWord s.fetch = some (.setSt x) ∧ t.st = s.getV x)

/-- pc after a step is the default advance, ipc + 2 modulo 2^16, unless the instruction is a jump, a call, a return, a skip or a
WAIT_KEY; after a skip it is ipc + 2 or ipc + 4; a WAIT_KEY leaves ipc or ipc + 2 (10_state.md R18, whose list C3 completes). -/
def Obligations.PcAdvancesByTwoUnlessOverridden : Prop :=
  ∀ (s t : State) (i : Instr), decodeWord s.fetch = some i → step s = .next t →
    (Part.pc ∉ partsOf i → t.pc = s.pc + 2) ∧
    ((∃ x nn, i = .skipEqNn x nn ∨ i = .skipNeqNn x nn) ∨ (∃ x y, i = .skipEqVy x y ∨ i = .skipNeqVy x y) ∨
      (∃ x, i = .skipKey x ∨ i = .skipNkey x) → t.pc = s.pc + 2 ∨ t.pc = s.pc + 4) ∧
    ((∃ x, i = .waitKey x) → t.pc = s.pc ∨ t.pc = s.pc + 2)

/-- The reset state meets the invariant of `StepKeepsTheInvariant`: its latch agrees with the program (10_state.md R27, R26),
and its memory is in the model's canonical form (log 20, DESIGN CHOICE). -/
def Obligations.ResetStateMeetsTheInvariant : Prop := State.reset.Inv

/-- Every step keeps the invariant, which has two halves. The latch agrees with the program: while it is armed the word at pc is
the WAIT_KEY that armed it, and while it is not armed no key is recorded (10_state.md R27, which the spec marks as derived)
and the register field is 0, as clearing leaves it (inferred from R25, decision D10, log 7). Memory stays in canonical form,
so that no address outside 0x000 to 0xFFF is ever listed: this half is the model's own and no rule's (log 20, DESIGN
CHOICE). It holds of every state that meets it, not only of runs from reset. -/
def Obligations.StepKeepsTheInvariant : Prop := ∀ s t : State, s.Inv → step s = .next t → t.Inv

/-- The invariant of `StepKeepsTheInvariant` holds between any two commands: every finite sequence of commands the host may
issue, in any order, errors included, keeps it. Its latch half is 10_state.md R27 (marked derived in the spec), with the
cleared register field inferred from R25 (decision D10, log 7); its memory half, the canonical form, is the model's own and
no rule's (log 20, DESIGN CHOICE). -/
def Obligations.CommandSequencesKeepTheInvariant : Prop :=
  ∀ (cs : List Command) (s : State), s.Inv → (runCommands cs s).1.Inv

/-- A parked state stays: at a jump to itself, or at a key wait with nothing recorded, any number of `tick_cpu` leave the whole
state unchanged and answer Ok (40_tick_driver.md R57, decision D27; the premise is the invariant of `StepKeepsTheInvariant`,
whose canonical form of memory is the model's, log 20). -/
def Obligations.ParkedStatesStayParked : Prop :=
  ∀ (s : State) (n : Nat), s.Inv → s.Parked →
    runCommands (List.replicate n .tickCpu) s = (s, List.replicate n .ok)
end

