-- ==== Sys2Proof/Laws/State.lean ====
section
/-! SUPPORT. What each update leaves of each field, and of each observation (a register, a key, a byte, a pixel, the
fetched word). One lemma per field per update, each true by definition; later proofs never unfold an update. -/

namespace Sys2Proof.Machine.State

variable (s : State)

/-! ### `setMem` -/

@[simp] theorem setMem_mem (m : Memory) : (s.setMem m).mem = m := rfl
@[simp] theorem setMem_v (m : Memory) : (s.setMem m).v = s.v := rfl
@[simp] theorem setMem_i (m : Memory) : (s.setMem m).i = s.i := rfl
@[simp] theorem setMem_pc (m : Memory) : (s.setMem m).pc = s.pc := rfl
@[simp] theorem setMem_stack (m : Memory) : (s.setMem m).stack = s.stack := rfl
@[simp] theorem setMem_sp (m : Memory) : (s.setMem m).sp = s.sp := rfl
@[simp] theorem setMem_dt (m : Memory) : (s.setMem m).dt = s.dt := rfl
@[simp] theorem setMem_st (m : Memory) : (s.setMem m).st = s.st := rfl
@[simp] theorem setMem_fb (m : Memory) : (s.setMem m).fb = s.fb := rfl
@[simp] theorem setMem_key (m : Memory) : (s.setMem m).key = s.key := rfl
@[simp] theorem setMem_waitActive (m : Memory) : (s.setMem m).waitActive = s.waitActive := rfl
@[simp] theorem setMem_waitReg (m : Memory) : (s.setMem m).waitReg = s.waitReg := rfl
@[simp] theorem setMem_waitKey (m : Memory) : (s.setMem m).waitKey = s.waitKey := rfl
@[simp] theorem setMem_params (m : Memory) : (s.setMem m).params = s.params := rfl
@[simp] theorem setMem_drawCount (m : Memory) : (s.setMem m).drawCount = s.drawCount := rfl
@[simp] theorem setMem_getV (m : Memory) (r : RegIdx) : (s.setMem m).getV r = s.getV r := rfl
@[simp] theorem setMem_getKey (m : Memory) (q : KeyIdx) : (s.setMem m).getKey q = s.getKey q := rfl
@[simp] theorem setMem_pixel (m : Memory) (px : Fin 64) (py : Fin 32) : (s.setMem m).pixel px py = s.pixel px py := rfl
@[simp] theorem setMem_dataAddr (m : Memory) (d : Nat) : (s.setMem m).dataAddr d = s.dataAddr d := rfl
@[simp] theorem setMem_shiftReg (m : Memory) (vx vy : RegIdx) : (s.setMem m).shiftReg vx vy = s.shiftReg vx vy := rfl

/-! ### `setByte` -/

@[simp] theorem setByte_mem (a : Nat) (b : Byte) : (s.setByte a b).mem = s.mem.write (eff a) b := rfl
@[simp] theorem setByte_v (a : Nat) (b : Byte) : (s.setByte a b).v = s.v := rfl
@[simp] theorem setByte_i (a : Nat) (b : Byte) : (s.setByte a b).i = s.i := rfl
@[simp] theorem setByte_pc (a : Nat) (b : Byte) : (s.setByte a b).pc = s.pc := rfl
@[simp] theorem setByte_stack (a : Nat) (b : Byte) : (s.setByte a b).stack = s.stack := rfl
@[simp] theorem setByte_sp (a : Nat) (b : Byte) : (s.setByte a b).sp = s.sp := rfl
@[simp] theorem setByte_dt (a : Nat) (b : Byte) : (s.setByte a b).dt = s.dt := rfl
@[simp] theorem setByte_st (a : Nat) (b : Byte) : (s.setByte a b).st = s.st := rfl
@[simp] theorem setByte_fb (a : Nat) (b : Byte) : (s.setByte a b).fb = s.fb := rfl
@[simp] theorem setByte_key (a : Nat) (b : Byte) : (s.setByte a b).key = s.key := rfl
@[simp] theorem setByte_waitActive (a : Nat) (b : Byte) : (s.setByte a b).waitActive = s.waitActive := rfl
@[simp] theorem setByte_waitReg (a : Nat) (b : Byte) : (s.setByte a b).waitReg = s.waitReg := rfl
@[simp] theorem setByte_waitKey (a : Nat) (b : Byte) : (s.setByte a b).waitKey = s.waitKey := rfl
@[simp] theorem setByte_params (a : Nat) (b : Byte) : (s.setByte a b).params = s.params := rfl
@[simp] theorem setByte_drawCount (a : Nat) (b : Byte) : (s.setByte a b).drawCount = s.drawCount := rfl
@[simp] theorem setByte_getV (a : Nat) (b : Byte) (r : RegIdx) : (s.setByte a b).getV r = s.getV r := rfl
@[simp] theorem setByte_getKey (a : Nat) (b : Byte) (q : KeyIdx) : (s.setByte a b).getKey q = s.getKey q := rfl
@[simp] theorem setByte_pixel (a : Nat) (b : Byte) (px : Fin 64) (py : Fin 32) : (s.setByte a b).pixel px py = s.pixel px py := rfl
@[simp] theorem setByte_dataAddr (a : Nat) (b : Byte) (d : Nat) : (s.setByte a b).dataAddr d = s.dataAddr d := rfl
@[simp] theorem setByte_shiftReg (a : Nat) (b : Byte) (vx vy : RegIdx) : (s.setByte a b).shiftReg vx vy = s.shiftReg vx vy := rfl

/-! ### `setDataByte` -/

@[simp] theorem setDataByte_mem (k : Nat) (b : Byte) : (s.setDataByte k b).mem = s.mem.write (eff (s.dataAddr k)) b := rfl
@[simp] theorem setDataByte_v (k : Nat) (b : Byte) : (s.setDataByte k b).v = s.v := rfl
@[simp] theorem setDataByte_i (k : Nat) (b : Byte) : (s.setDataByte k b).i = s.i := rfl
@[simp] theorem setDataByte_pc (k : Nat) (b : Byte) : (s.setDataByte k b).pc = s.pc := rfl
@[simp] theorem setDataByte_stack (k : Nat) (b : Byte) : (s.setDataByte k b).stack = s.stack := rfl
@[simp] theorem setDataByte_sp (k : Nat) (b : Byte) : (s.setDataByte k b).sp = s.sp := rfl
@[simp] theorem setDataByte_dt (k : Nat) (b : Byte) : (s.setDataByte k b).dt = s.dt := rfl
@[simp] theorem setDataByte_st (k : Nat) (b : Byte) : (s.setDataByte k b).st = s.st := rfl
@[simp] theorem setDataByte_fb (k : Nat) (b : Byte) : (s.setDataByte k b).fb = s.fb := rfl
@[simp] theorem setDataByte_key (k : Nat) (b : Byte) : (s.setDataByte k b).key = s.key := rfl
@[simp] theorem setDataByte_waitActive (k : Nat) (b : Byte) : (s.setDataByte k b).waitActive = s.waitActive := rfl
@[simp] theorem setDataByte_waitReg (k : Nat) (b : Byte) : (s.setDataByte k b).waitReg = s.waitReg := rfl
@[simp] theorem setDataByte_waitKey (k : Nat) (b : Byte) : (s.setDataByte k b).waitKey = s.waitKey := rfl
@[simp] theorem setDataByte_params (k : Nat) (b : Byte) : (s.setDataByte k b).params = s.params := rfl
@[simp] theorem setDataByte_drawCount (k : Nat) (b : Byte) : (s.setDataByte k b).drawCount = s.drawCount := rfl
@[simp] theorem setDataByte_getV (k : Nat) (b : Byte) (r : RegIdx) : (s.setDataByte k b).getV r = s.getV r := rfl
@[simp] theorem setDataByte_getKey (k : Nat) (b : Byte) (q : KeyIdx) : (s.setDataByte k b).getKey q = s.getKey q := rfl
@[simp] theorem setDataByte_pixel (k : Nat) (b : Byte) (px : Fin 64) (py : Fin 32) : (s.setDataByte k b).pixel px py = s.pixel px py := rfl
@[simp] theorem setDataByte_dataAddr (k : Nat) (b : Byte) (d : Nat) : (s.setDataByte k b).dataAddr d = s.dataAddr d := rfl
@[simp] theorem setDataByte_shiftReg (k : Nat) (b : Byte) (vx vy : RegIdx) : (s.setDataByte k b).shiftReg vx vy = s.shiftReg vx vy := rfl

/-! ### `setV` -/

@[simp] theorem setV_mem (x : RegIdx) (b : Byte) : (s.setV x b).mem = s.mem := rfl
@[simp] theorem setV_v (x : RegIdx) (b : Byte) : (s.setV x b).v = s.v.set x.val b x.isLt := rfl
@[simp] theorem setV_i (x : RegIdx) (b : Byte) : (s.setV x b).i = s.i := rfl
@[simp] theorem setV_pc (x : RegIdx) (b : Byte) : (s.setV x b).pc = s.pc := rfl
@[simp] theorem setV_stack (x : RegIdx) (b : Byte) : (s.setV x b).stack = s.stack := rfl
@[simp] theorem setV_sp (x : RegIdx) (b : Byte) : (s.setV x b).sp = s.sp := rfl
@[simp] theorem setV_dt (x : RegIdx) (b : Byte) : (s.setV x b).dt = s.dt := rfl
@[simp] theorem setV_st (x : RegIdx) (b : Byte) : (s.setV x b).st = s.st := rfl
@[simp] theorem setV_fb (x : RegIdx) (b : Byte) : (s.setV x b).fb = s.fb := rfl
@[simp] theorem setV_key (x : RegIdx) (b : Byte) : (s.setV x b).key = s.key := rfl
@[simp] theorem setV_waitActive (x : RegIdx) (b : Byte) : (s.setV x b).waitActive = s.waitActive := rfl
@[simp] theorem setV_waitReg (x : RegIdx) (b : Byte) : (s.setV x b).waitReg = s.waitReg := rfl
@[simp] theorem setV_waitKey (x : RegIdx) (b : Byte) : (s.setV x b).waitKey = s.waitKey := rfl
@[simp] theorem setV_params (x : RegIdx) (b : Byte) : (s.setV x b).params = s.params := rfl
@[simp] theorem setV_drawCount (x : RegIdx) (b : Byte) : (s.setV x b).drawCount = s.drawCount := rfl
@[simp] theorem setV_getKey (x : RegIdx) (b : Byte) (q : KeyIdx) : (s.setV x b).getKey q = s.getKey q := rfl
@[simp] theorem setV_byteAt (x : RegIdx) (b : Byte) (d : Nat) : (s.setV x b).byteAt d = s.byteAt d := rfl
@[simp] theorem setV_pixel (x : RegIdx) (b : Byte) (px : Fin 64) (py : Fin 32) : (s.setV x b).pixel px py = s.pixel px py := rfl
@[simp] theorem setV_dataAddr (x : RegIdx) (b : Byte) (d : Nat) : (s.setV x b).dataAddr d = s.dataAddr d := rfl
@[simp] theorem setV_dataByte (x : RegIdx) (b : Byte) (d : Nat) : (s.setV x b).dataByte d = s.dataByte d := rfl
@[simp] theorem setV_wordAt (x : RegIdx) (b : Byte) (d : Nat) : (s.setV x b).wordAt d = s.wordAt d := rfl
@[simp] theorem setV_fetch (x : RegIdx) (b : Byte) : (s.setV x b).fetch = s.fetch := rfl
@[simp] theorem setV_shiftReg (x : RegIdx) (b : Byte) (vx vy : RegIdx) : (s.setV x b).shiftReg vx vy = s.shiftReg vx vy := rfl

/-! ### `setFlag` -/

@[simp] theorem setFlag_mem (c : Bool) : (s.setFlag c).mem = s.mem := rfl
@[simp] theorem setFlag_v (c : Bool) : (s.setFlag c).v = (s.setV VF (flagByte c)).v := rfl
@[simp] theorem setFlag_i (c : Bool) : (s.setFlag c).i = s.i := rfl
@[simp] theorem setFlag_pc (c : Bool) : (s.setFlag c).pc = s.pc := rfl
@[simp] theorem setFlag_stack (c : Bool) : (s.setFlag c).stack = s.stack := rfl
@[simp] theorem setFlag_sp (c : Bool) : (s.setFlag c).sp = s.sp := rfl
@[simp] theorem setFlag_dt (c : Bool) : (s.setFlag c).dt = s.dt := rfl
@[simp] theorem setFlag_st (c : Bool) : (s.setFlag c).st = s.st := rfl
@[simp] theorem setFlag_fb (c : Bool) : (s.setFlag c).fb = s.fb := rfl
@[simp] theorem setFlag_key (c : Bool) : (s.setFlag c).key = s.key := rfl
@[simp] theorem setFlag_waitActive (c : Bool) : (s.setFlag c).waitActive = s.waitActive := rfl
@[simp] theorem setFlag_waitReg (c : Bool) : (s.setFlag c).waitReg = s.waitReg := rfl
@[simp] theorem setFlag_waitKey (c : Bool) : (s.setFlag c).waitKey = s.waitKey := rfl
@[simp] theorem setFlag_params (c : Bool) : (s.setFlag c).params = s.params := rfl
@[simp] theorem setFlag_drawCount (c : Bool) : (s.setFlag c).drawCount = s.drawCount := rfl
@[simp] theorem setFlag_getKey (c : Bool) (q : KeyIdx) : (s.setFlag c).getKey q = s.getKey q := rfl
@[simp] theorem setFlag_byteAt (c : Bool) (d : Nat) : (s.setFlag c).byteAt d = s.byteAt d := rfl
@[simp] theorem setFlag_pixel (c : Bool) (px : Fin 64) (py : Fin 32) : (s.setFlag c).pixel px py = s.pixel px py := rfl
@[simp] theorem setFlag_dataAddr (c : Bool) (d : Nat) : (s.setFlag c).dataAddr d = s.dataAddr d := rfl
@[simp] theorem setFlag_dataByte (c : Bool) (d : Nat) : (s.setFlag c).dataByte d = s.dataByte d := rfl
@[simp] theorem setFlag_wordAt (c : Bool) (d : Nat) : (s.setFlag c).wordAt d = s.wordAt d := rfl
@[simp] theorem setFlag_fetch (c : Bool) : (s.setFlag c).fetch = s.fetch := rfl
@[simp] theorem setFlag_shiftReg (c : Bool) (vx vy : RegIdx) : (s.setFlag c).shiftReg vx vy = s.shiftReg vx vy := rfl

/-! ### `setResultFlag` -/

@[simp] theorem setResultFlag_mem (x : RegIdx) (b : Byte) (c : Bool) : (s.setResultFlag x b c).mem = s.mem := rfl
@[simp] theorem setResultFlag_v (x : RegIdx) (b : Byte) (c : Bool) : (s.setResultFlag x b c).v = ((s.setV x b).setV VF (flagByte c)).v := rfl
@[simp] theorem setResultFlag_i (x : RegIdx) (b : Byte) (c : Bool) : (s.setResultFlag x b c).i = s.i := rfl
@[simp] theorem setResultFlag_pc (x : RegIdx) (b : Byte) (c : Bool) : (s.setResultFlag x b c).pc = s.pc := rfl
@[simp] theorem setResultFlag_stack (x : RegIdx) (b : Byte) (c : Bool) : (s.setResultFlag x b c).stack = s.stack := rfl
@[simp] theorem setResultFlag_sp (x : RegIdx) (b : Byte) (c : Bool) : (s.setResultFlag x b c).sp = s.sp := rfl
@[simp] theorem setResultFlag_dt (x : RegIdx) (b : Byte) (c : Bool) : (s.setResultFlag x b c).dt = s.dt := rfl
@[simp] theorem setResultFlag_st (x : RegIdx) (b : Byte) (c : Bool) : (s.setResultFlag x b c).st = s.st := rfl
@[simp] theorem setResultFlag_fb (x : RegIdx) (b : Byte) (c : Bool) : (s.setResultFlag x b c).fb = s.fb := rfl
@[simp] theorem setResultFlag_key (x : RegIdx) (b : Byte) (c : Bool) : (s.setResultFlag x b c).key = s.key := rfl
@[simp] theorem setResultFlag_waitActive (x : RegIdx) (b : Byte) (c : Bool) : (s.setResultFlag x b c).waitActive = s.waitActive := rfl
@[simp] theorem setResultFlag_waitReg (x : RegIdx) (b : Byte) (c : Bool) : (s.setResultFlag x b c).waitReg = s.waitReg := rfl
@[simp] theorem setResultFlag_waitKey (x : RegIdx) (b : Byte) (c : Bool) : (s.setResultFlag x b c).waitKey = s.waitKey := rfl
@[simp] theorem setResultFlag_params (x : RegIdx) (b : Byte) (c : Bool) : (s.setResultFlag x b c).params = s.params := rfl
@[simp] theorem setResultFlag_drawCount (x : RegIdx) (b : Byte) (c : Bool) : (s.setResultFlag x b c).drawCount = s.drawCount := rfl
@[simp] theorem setResultFlag_getKey (x : RegIdx) (b : Byte) (c : Bool) (q : KeyIdx) : (s.setResultFlag x b c).getKey q = s.getKey q := rfl
@[simp] theorem setResultFlag_byteAt (x : RegIdx) (b : Byte) (c : Bool) (d : Nat) : (s.setResultFlag x b c).byteAt d = s.byteAt d := rfl
@[simp] theorem setResultFlag_pixel (x : RegIdx) (b : Byte) (c : Bool) (px : Fin 64) (py : Fin 32) : (s.setResultFlag x b c).pixel px py = s.pixel px py := rfl
@[simp] theorem setResultFlag_dataAddr (x : RegIdx) (b : Byte) (c : Bool) (d : Nat) : (s.setResultFlag x b c).dataAddr d = s.dataAddr d := rfl
@[simp] theorem setResultFlag_dataByte (x : RegIdx) (b : Byte) (c : Bool) (d : Nat) : (s.setResultFlag x b c).dataByte d = s.dataByte d := rfl
@[simp] theorem setResultFlag_wordAt (x : RegIdx) (b : Byte) (c : Bool) (d : Nat) : (s.setResultFlag x b c).wordAt d = s.wordAt d := rfl
@[simp] theorem setResultFlag_fetch (x : RegIdx) (b : Byte) (c : Bool) : (s.setResultFlag x b c).fetch = s.fetch := rfl
@[simp] theorem setResultFlag_shiftReg (x : RegIdx) (b : Byte) (c : Bool) (vx vy : RegIdx) : (s.setResultFlag x b c).shiftReg vx vy = s.shiftReg vx vy := rfl

/-! ### `maskDraw` -/

@[simp] theorem maskDraw_mem (x : RegIdx) (nn r : Byte) : (s.maskDraw x nn r).mem = s.mem := rfl
@[simp] theorem maskDraw_v (x : RegIdx) (nn r : Byte) : (s.maskDraw x nn r).v = (s.setV x (r &&& nn)).v := rfl
@[simp] theorem maskDraw_i (x : RegIdx) (nn r : Byte) : (s.maskDraw x nn r).i = s.i := rfl
@[simp] theorem maskDraw_pc (x : RegIdx) (nn r : Byte) : (s.maskDraw x nn r).pc = s.pc := rfl
@[simp] theorem maskDraw_stack (x : RegIdx) (nn r : Byte) : (s.maskDraw x nn r).stack = s.stack := rfl
@[simp] theorem maskDraw_sp (x : RegIdx) (nn r : Byte) : (s.maskDraw x nn r).sp = s.sp := rfl
@[simp] theorem maskDraw_dt (x : RegIdx) (nn r : Byte) : (s.maskDraw x nn r).dt = s.dt := rfl
@[simp] theorem maskDraw_st (x : RegIdx) (nn r : Byte) : (s.maskDraw x nn r).st = s.st := rfl
@[simp] theorem maskDraw_fb (x : RegIdx) (nn r : Byte) : (s.maskDraw x nn r).fb = s.fb := rfl
@[simp] theorem maskDraw_key (x : RegIdx) (nn r : Byte) : (s.maskDraw x nn r).key = s.key := rfl
@[simp] theorem maskDraw_waitActive (x : RegIdx) (nn r : Byte) : (s.maskDraw x nn r).waitActive = s.waitActive := rfl
@[simp] theorem maskDraw_waitReg (x : RegIdx) (nn r : Byte) : (s.maskDraw x nn r).waitReg = s.waitReg := rfl
@[simp] theorem maskDraw_waitKey (x : RegIdx) (nn r : Byte) : (s.maskDraw x nn r).waitKey = s.waitKey := rfl
@[simp] theorem maskDraw_params (x : RegIdx) (nn r : Byte) : (s.maskDraw x nn r).params = s.params := rfl
@[simp] theorem maskDraw_drawCount (x : RegIdx) (nn r : Byte) : (s.maskDraw x nn r).drawCount = s.drawCount := rfl
@[simp] theorem maskDraw_getKey (x : RegIdx) (nn r : Byte) (q : KeyIdx) : (s.maskDraw x nn r).getKey q = s.getKey q := rfl
@[simp] theorem maskDraw_byteAt (x : RegIdx) (nn r : Byte) (d : Nat) : (s.maskDraw x nn r).byteAt d = s.byteAt d := rfl
@[simp] theorem maskDraw_pixel (x : RegIdx) (nn r : Byte) (px : Fin 64) (py : Fin 32) : (s.maskDraw x nn r).pixel px py = s.pixel px py := rfl
@[simp] theorem maskDraw_dataAddr (x : RegIdx) (nn r : Byte) (d : Nat) : (s.maskDraw x nn r).dataAddr d = s.dataAddr d := rfl
@[simp] theorem maskDraw_dataByte (x : RegIdx) (nn r : Byte) (d : Nat) : (s.maskDraw x nn r).dataByte d = s.dataByte d := rfl
@[simp] theorem maskDraw_wordAt (x : RegIdx) (nn r : Byte) (d : Nat) : (s.maskDraw x nn r).wordAt d = s.wordAt d := rfl
@[simp] theorem maskDraw_fetch (x : RegIdx) (nn r : Byte) : (s.maskDraw x nn r).fetch = s.fetch := rfl
@[simp] theorem maskDraw_shiftReg (x : RegIdx) (nn r : Byte) (vx vy : RegIdx) : (s.maskDraw x nn r).shiftReg vx vy = s.shiftReg vx vy := rfl

/-! ### `setI` -/

@[simp] theorem setI_mem (w : Word) : (s.setI w).mem = s.mem := rfl
@[simp] theorem setI_v (w : Word) : (s.setI w).v = s.v := rfl
@[simp] theorem setI_i (w : Word) : (s.setI w).i = w := rfl
@[simp] theorem setI_pc (w : Word) : (s.setI w).pc = s.pc := rfl
@[simp] theorem setI_stack (w : Word) : (s.setI w).stack = s.stack := rfl
@[simp] theorem setI_sp (w : Word) : (s.setI w).sp = s.sp := rfl
@[simp] theorem setI_dt (w : Word) : (s.setI w).dt = s.dt := rfl
@[simp] theorem setI_st (w : Word) : (s.setI w).st = s.st := rfl
@[simp] theorem setI_fb (w : Word) : (s.setI w).fb = s.fb := rfl
@[simp] theorem setI_key (w : Word) : (s.setI w).key = s.key := rfl
@[simp] theorem setI_waitActive (w : Word) : (s.setI w).waitActive = s.waitActive := rfl
@[simp] theorem setI_waitReg (w : Word) : (s.setI w).waitReg = s.waitReg := rfl
@[simp] theorem setI_waitKey (w : Word) : (s.setI w).waitKey = s.waitKey := rfl
@[simp] theorem setI_params (w : Word) : (s.setI w).params = s.params := rfl
@[simp] theorem setI_drawCount (w : Word) : (s.setI w).drawCount = s.drawCount := rfl
@[simp] theorem setI_getV (w : Word) (r : RegIdx) : (s.setI w).getV r = s.getV r := rfl
@[simp] theorem setI_getKey (w : Word) (q : KeyIdx) : (s.setI w).getKey q = s.getKey q := rfl
@[simp] theorem setI_byteAt (w : Word) (d : Nat) : (s.setI w).byteAt d = s.byteAt d := rfl
@[simp] theorem setI_pixel (w : Word) (px : Fin 64) (py : Fin 32) : (s.setI w).pixel px py = s.pixel px py := rfl
@[simp] theorem setI_wordAt (w : Word) (d : Nat) : (s.setI w).wordAt d = s.wordAt d := rfl
@[simp] theorem setI_fetch (w : Word) : (s.setI w).fetch = s.fetch := rfl
@[simp] theorem setI_shiftReg (w : Word) (vx vy : RegIdx) : (s.setI w).shiftReg vx vy = s.shiftReg vx vy := rfl

/-! ### `setPc` -/

@[simp] theorem setPc_mem (w : Word) : (s.setPc w).mem = s.mem := rfl
@[simp] theorem setPc_v (w : Word) : (s.setPc w).v = s.v := rfl
@[simp] theorem setPc_i (w : Word) : (s.setPc w).i = s.i := rfl
@[simp] theorem setPc_pc (w : Word) : (s.setPc w).pc = w := rfl
@[simp] theorem setPc_stack (w : Word) : (s.setPc w).stack = s.stack := rfl
@[simp] theorem setPc_sp (w : Word) : (s.setPc w).sp = s.sp := rfl
@[simp] theorem setPc_dt (w : Word) : (s.setPc w).dt = s.dt := rfl
@[simp] theorem setPc_st (w : Word) : (s.setPc w).st = s.st := rfl
@[simp] theorem setPc_fb (w : Word) : (s.setPc w).fb = s.fb := rfl
@[simp] theorem setPc_key (w : Word) : (s.setPc w).key = s.key := rfl
@[simp] theorem setPc_waitActive (w : Word) : (s.setPc w).waitActive = s.waitActive := rfl
@[simp] theorem setPc_waitReg (w : Word) : (s.setPc w).waitReg = s.waitReg := rfl
@[simp] theorem setPc_waitKey (w : Word) : (s.setPc w).waitKey = s.waitKey := rfl
@[simp] theorem setPc_params (w : Word) : (s.setPc w).params = s.params := rfl
@[simp] theorem setPc_drawCount (w : Word) : (s.setPc w).drawCount = s.drawCount := rfl
@[simp] theorem setPc_getV (w : Word) (r : RegIdx) : (s.setPc w).getV r = s.getV r := rfl
@[simp] theorem setPc_getKey (w : Word) (q : KeyIdx) : (s.setPc w).getKey q = s.getKey q := rfl
@[simp] theorem setPc_byteAt (w : Word) (d : Nat) : (s.setPc w).byteAt d = s.byteAt d := rfl
@[simp] theorem setPc_pixel (w : Word) (px : Fin 64) (py : Fin 32) : (s.setPc w).pixel px py = s.pixel px py := rfl
@[simp] theorem setPc_dataAddr (w : Word) (d : Nat) : (s.setPc w).dataAddr d = s.dataAddr d := rfl
@[simp] theorem setPc_dataByte (w : Word) (d : Nat) : (s.setPc w).dataByte d = s.dataByte d := rfl
@[simp] theorem setPc_wordAt (w : Word) (d : Nat) : (s.setPc w).wordAt d = s.wordAt d := rfl
@[simp] theorem setPc_shiftReg (w : Word) (vx vy : RegIdx) : (s.setPc w).shiftReg vx vy = s.shiftReg vx vy := rfl

/-! ### `advance` -/

@[simp] theorem advance_mem : (s.advance).mem = s.mem := rfl
@[simp] theorem advance_v : (s.advance).v = s.v := rfl
@[simp] theorem advance_i : (s.advance).i = s.i := rfl
@[simp] theorem advance_pc : (s.advance).pc = s.pc + 2 := rfl
@[simp] theorem advance_stack : (s.advance).stack = s.stack := rfl
@[simp] theorem advance_sp : (s.advance).sp = s.sp := rfl
@[simp] theorem advance_dt : (s.advance).dt = s.dt := rfl
@[simp] theorem advance_st : (s.advance).st = s.st := rfl
@[simp] theorem advance_fb : (s.advance).fb = s.fb := rfl
@[simp] theorem advance_key : (s.advance).key = s.key := rfl
@[simp] theorem advance_waitActive : (s.advance).waitActive = s.waitActive := rfl
@[simp] theorem advance_waitReg : (s.advance).waitReg = s.waitReg := rfl
@[simp] theorem advance_waitKey : (s.advance).waitKey = s.waitKey := rfl
@[simp] theorem advance_params : (s.advance).params = s.params := rfl
@[simp] theorem advance_drawCount : (s.advance).drawCount = s.drawCount := rfl
@[simp] theorem advance_getV (r : RegIdx) : (s.advance).getV r = s.getV r := rfl
@[simp] theorem advance_getKey (q : KeyIdx) : (s.advance).getKey q = s.getKey q := rfl
@[simp] theorem advance_byteAt (d : Nat) : (s.advance).byteAt d = s.byteAt d := rfl
@[simp] theorem advance_pixel (px : Fin 64) (py : Fin 32) : (s.advance).pixel px py = s.pixel px py := rfl
@[simp] theorem advance_dataAddr (d : Nat) : (s.advance).dataAddr d = s.dataAddr d := rfl
@[simp] theorem advance_dataByte (d : Nat) : (s.advance).dataByte d = s.dataByte d := rfl
@[simp] theorem advance_wordAt (d : Nat) : (s.advance).wordAt d = s.wordAt d := rfl
@[simp] theorem advance_shiftReg (vx vy : RegIdx) : (s.advance).shiftReg vx vy = s.shiftReg vx vy := rfl

/-! ### `retreat` -/

@[simp] theorem retreat_mem : (s.retreat).mem = s.mem := rfl
@[simp] theorem retreat_v : (s.retreat).v = s.v := rfl
@[simp] theorem retreat_i : (s.retreat).i = s.i := rfl
@[simp] theorem retreat_pc : (s.retreat).pc = s.pc - 2 := rfl
@[simp] theorem retreat_stack : (s.retreat).stack = s.stack := rfl
@[simp] theorem retreat_sp : (s.retreat).sp = s.sp := rfl
@[simp] theorem retreat_dt : (s.retreat).dt = s.dt := rfl
@[simp] theorem retreat_st : (s.retreat).st = s.st := rfl
@[simp] theorem retreat_fb : (s.retreat).fb = s.fb := rfl
@[simp] theorem retreat_key : (s.retreat).key = s.key := rfl
@[simp] theorem retreat_waitActive : (s.retreat).waitActive = s.waitActive := rfl
@[simp] theorem retreat_waitReg : (s.retreat).waitReg = s.waitReg := rfl
@[simp] theorem retreat_waitKey : (s.retreat).waitKey = s.waitKey := rfl
@[simp] theorem retreat_params : (s.retreat).params = s.params := rfl
@[simp] theorem retreat_drawCount : (s.retreat).drawCount = s.drawCount := rfl
@[simp] theorem retreat_getV (r : RegIdx) : (s.retreat).getV r = s.getV r := rfl
@[simp] theorem retreat_getKey (q : KeyIdx) : (s.retreat).getKey q = s.getKey q := rfl
@[simp] theorem retreat_byteAt (d : Nat) : (s.retreat).byteAt d = s.byteAt d := rfl
@[simp] theorem retreat_pixel (px : Fin 64) (py : Fin 32) : (s.retreat).pixel px py = s.pixel px py := rfl
@[simp] theorem retreat_dataAddr (d : Nat) : (s.retreat).dataAddr d = s.dataAddr d := rfl
@[simp] theorem retreat_dataByte (d : Nat) : (s.retreat).dataByte d = s.dataByte d := rfl
@[simp] theorem retreat_wordAt (d : Nat) : (s.retreat).wordAt d = s.wordAt d := rfl
@[simp] theorem retreat_shiftReg (vx vy : RegIdx) : (s.retreat).shiftReg vx vy = s.shiftReg vx vy := rfl

/-! ### `setDt` -/

@[simp] theorem setDt_mem (b : Byte) : (s.setDt b).mem = s.mem := rfl
@[simp] theorem setDt_v (b : Byte) : (s.setDt b).v = s.v := rfl
@[simp] theorem setDt_i (b : Byte) : (s.setDt b).i = s.i := rfl
@[simp] theorem setDt_pc (b : Byte) : (s.setDt b).pc = s.pc := rfl
@[simp] theorem setDt_stack (b : Byte) : (s.setDt b).stack = s.stack := rfl
@[simp] theorem setDt_sp (b : Byte) : (s.setDt b).sp = s.sp := rfl
@[simp] theorem setDt_dt (b : Byte) : (s.setDt b).dt = b := rfl
@[simp] theorem setDt_st (b : Byte) : (s.setDt b).st = s.st := rfl
@[simp] theorem setDt_fb (b : Byte) : (s.setDt b).fb = s.fb := rfl
@[simp] theorem setDt_key (b : Byte) : (s.setDt b).key = s.key := rfl
@[simp] theorem setDt_waitActive (b : Byte) : (s.setDt b).waitActive = s.waitActive := rfl
@[simp] theorem setDt_waitReg (b : Byte) : (s.setDt b).waitReg = s.waitReg := rfl
@[simp] theorem setDt_waitKey (b : Byte) : (s.setDt b).waitKey = s.waitKey := rfl
@[simp] theorem setDt_params (b : Byte) : (s.setDt b).params = s.params := rfl
@[simp] theorem setDt_drawCount (b : Byte) : (s.setDt b).drawCount = s.drawCount := rfl
@[simp] theorem setDt_getV (b : Byte) (r : RegIdx) : (s.setDt b).getV r = s.getV r := rfl
@[simp] theorem setDt_getKey (b : Byte) (q : KeyIdx) : (s.setDt b).getKey q = s.getKey q := rfl
@[simp] theorem setDt_byteAt (b : Byte) (d : Nat) : (s.setDt b).byteAt d = s.byteAt d := rfl
@[simp] theorem setDt_pixel (b : Byte) (px : Fin 64) (py : Fin 32) : (s.setDt b).pixel px py = s.pixel px py := rfl
@[simp] theorem setDt_dataAddr (b : Byte) (d : Nat) : (s.setDt b).dataAddr d = s.dataAddr d := rfl
@[simp] theorem setDt_dataByte (b : Byte) (d : Nat) : (s.setDt b).dataByte d = s.dataByte d := rfl
@[simp] theorem setDt_wordAt (b : Byte) (d : Nat) : (s.setDt b).wordAt d = s.wordAt d := rfl
@[simp] theorem setDt_fetch (b : Byte) : (s.setDt b).fetch = s.fetch := rfl
@[simp] theorem setDt_shiftReg (b : Byte) (vx vy : RegIdx) : (s.setDt b).shiftReg vx vy = s.shiftReg vx vy := rfl

/-! ### `setSt` -/

@[simp] theorem setSt_mem (b : Byte) : (s.setSt b).mem = s.mem := rfl
@[simp] theorem setSt_v (b : Byte) : (s.setSt b).v = s.v := rfl
@[simp] theorem setSt_i (b : Byte) : (s.setSt b).i = s.i := rfl
@[simp] theorem setSt_pc (b : Byte) : (s.setSt b).pc = s.pc := rfl
@[simp] theorem setSt_stack (b : Byte) : (s.setSt b).stack = s.stack := rfl
@[simp] theorem setSt_sp (b : Byte) : (s.setSt b).sp = s.sp := rfl
@[simp] theorem setSt_dt (b : Byte) : (s.setSt b).dt = s.dt := rfl
@[simp] theorem setSt_st (b : Byte) : (s.setSt b).st = b := rfl
@[simp] theorem setSt_fb (b : Byte) : (s.setSt b).fb = s.fb := rfl
@[simp] theorem setSt_key (b : Byte) : (s.setSt b).key = s.key := rfl
@[simp] theorem setSt_waitActive (b : Byte) : (s.setSt b).waitActive = s.waitActive := rfl
@[simp] theorem setSt_waitReg (b : Byte) : (s.setSt b).waitReg = s.waitReg := rfl
@[simp] theorem setSt_waitKey (b : Byte) : (s.setSt b).waitKey = s.waitKey := rfl
@[simp] theorem setSt_params (b : Byte) : (s.setSt b).params = s.params := rfl
@[simp] theorem setSt_drawCount (b : Byte) : (s.setSt b).drawCount = s.drawCount := rfl
@[simp] theorem setSt_getV (b : Byte) (r : RegIdx) : (s.setSt b).getV r = s.getV r := rfl
@[simp] theorem setSt_getKey (b : Byte) (q : KeyIdx) : (s.setSt b).getKey q = s.getKey q := rfl
@[simp] theorem setSt_byteAt (b : Byte) (d : Nat) : (s.setSt b).byteAt d = s.byteAt d := rfl
@[simp] theorem setSt_pixel (b : Byte) (px : Fin 64) (py : Fin 32) : (s.setSt b).pixel px py = s.pixel px py := rfl
@[simp] theorem setSt_dataAddr (b : Byte) (d : Nat) : (s.setSt b).dataAddr d = s.dataAddr d := rfl
@[simp] theorem setSt_dataByte (b : Byte) (d : Nat) : (s.setSt b).dataByte d = s.dataByte d := rfl
@[simp] theorem setSt_wordAt (b : Byte) (d : Nat) : (s.setSt b).wordAt d = s.wordAt d := rfl
@[simp] theorem setSt_fetch (b : Byte) : (s.setSt b).fetch = s.fetch := rfl
@[simp] theorem setSt_shiftReg (b : Byte) (vx vy : RegIdx) : (s.setSt b).shiftReg vx vy = s.shiftReg vx vy := rfl

/-! ### `countDraw` -/

@[simp] theorem countDraw_mem : (s.countDraw).mem = s.mem := rfl
@[simp] theorem countDraw_v : (s.countDraw).v = s.v := rfl
@[simp] theorem countDraw_i : (s.countDraw).i = s.i := rfl
@[simp] theorem countDraw_pc : (s.countDraw).pc = s.pc := rfl
@[simp] theorem countDraw_stack : (s.countDraw).stack = s.stack := rfl
@[simp] theorem countDraw_sp : (s.countDraw).sp = s.sp := rfl
@[simp] theorem countDraw_dt : (s.countDraw).dt = s.dt := rfl
@[simp] theorem countDraw_st : (s.countDraw).st = s.st := rfl
@[simp] theorem countDraw_fb : (s.countDraw).fb = s.fb := rfl
@[simp] theorem countDraw_key : (s.countDraw).key = s.key := rfl
@[simp] theorem countDraw_waitActive : (s.countDraw).waitActive = s.waitActive := rfl
@[simp] theorem countDraw_waitReg : (s.countDraw).waitReg = s.waitReg := rfl
@[simp] theorem countDraw_waitKey : (s.countDraw).waitKey = s.waitKey := rfl
@[simp] theorem countDraw_params : (s.countDraw).params = s.params := rfl
@[simp] theorem countDraw_drawCount : (s.countDraw).drawCount = s.drawCount + 1 := rfl
@[simp] theorem countDraw_getV (r : RegIdx) : (s.countDraw).getV r = s.getV r := rfl
@[simp] theorem countDraw_getKey (q : KeyIdx) : (s.countDraw).getKey q = s.getKey q := rfl
@[simp] theorem countDraw_byteAt (d : Nat) : (s.countDraw).byteAt d = s.byteAt d := rfl
@[simp] theorem countDraw_pixel (px : Fin 64) (py : Fin 32) : (s.countDraw).pixel px py = s.pixel px py := rfl
@[simp] theorem countDraw_dataAddr (d : Nat) : (s.countDraw).dataAddr d = s.dataAddr d := rfl
@[simp] theorem countDraw_dataByte (d : Nat) : (s.countDraw).dataByte d = s.dataByte d := rfl
@[simp] theorem countDraw_wordAt (d : Nat) : (s.countDraw).wordAt d = s.wordAt d := rfl
@[simp] theorem countDraw_fetch : (s.countDraw).fetch = s.fetch := rfl
@[simp] theorem countDraw_shiftReg (vx vy : RegIdx) : (s.countDraw).shiftReg vx vy = s.shiftReg vx vy := rfl

/-! ### `setFb` -/

@[simp] theorem setFb_mem (f : Framebuffer) : (s.setFb f).mem = s.mem := rfl
@[simp] theorem setFb_v (f : Framebuffer) : (s.setFb f).v = s.v := rfl
@[simp] theorem setFb_i (f : Framebuffer) : (s.setFb f).i = s.i := rfl
@[simp] theorem setFb_pc (f : Framebuffer) : (s.setFb f).pc = s.pc := rfl
@[simp] theorem setFb_stack (f : Framebuffer) : (s.setFb f).stack = s.stack := rfl
@[simp] theorem setFb_sp (f : Framebuffer) : (s.setFb f).sp = s.sp := rfl
@[simp] theorem setFb_dt (f : Framebuffer) : (s.setFb f).dt = s.dt := rfl
@[simp] theorem setFb_st (f : Framebuffer) : (s.setFb f).st = s.st := rfl
@[simp] theorem setFb_fb (f : Framebuffer) : (s.setFb f).fb = f := rfl
@[simp] theorem setFb_key (f : Framebuffer) : (s.setFb f).key = s.key := rfl
@[simp] theorem setFb_waitActive (f : Framebuffer) : (s.setFb f).waitActive = s.waitActive := rfl
@[simp] theorem setFb_waitReg (f : Framebuffer) : (s.setFb f).waitReg = s.waitReg := rfl
@[simp] theorem setFb_waitKey (f : Framebuffer) : (s.setFb f).waitKey = s.waitKey := rfl
@[simp] theorem setFb_params (f : Framebuffer) : (s.setFb f).params = s.params := rfl
@[simp] theorem setFb_drawCount (f : Framebuffer) : (s.setFb f).drawCount = s.drawCount := rfl
@[simp] theorem setFb_getV (f : Framebuffer) (r : RegIdx) : (s.setFb f).getV r = s.getV r := rfl
@[simp] theorem setFb_getKey (f : Framebuffer) (q : KeyIdx) : (s.setFb f).getKey q = s.getKey q := rfl
@[simp] theorem setFb_byteAt (f : Framebuffer) (d : Nat) : (s.setFb f).byteAt d = s.byteAt d := rfl
@[simp] theorem setFb_dataAddr (f : Framebuffer) (d : Nat) : (s.setFb f).dataAddr d = s.dataAddr d := rfl
@[simp] theorem setFb_dataByte (f : Framebuffer) (d : Nat) : (s.setFb f).dataByte d = s.dataByte d := rfl
@[simp] theorem setFb_wordAt (f : Framebuffer) (d : Nat) : (s.setFb f).wordAt d = s.wordAt d := rfl
@[simp] theorem setFb_fetch (f : Framebuffer) : (s.setFb f).fetch = s.fetch := rfl
@[simp] theorem setFb_shiftReg (f : Framebuffer) (vx vy : RegIdx) : (s.setFb f).shiftReg vx vy = s.shiftReg vx vy := rfl

/-! ### `setKey` -/

@[simp] theorem setKey_mem (k : KeyIdx) (p : Bool) : (s.setKey k p).mem = s.mem := rfl
@[simp] theorem setKey_v (k : KeyIdx) (p : Bool) : (s.setKey k p).v = s.v := rfl
@[simp] theorem setKey_i (k : KeyIdx) (p : Bool) : (s.setKey k p).i = s.i := rfl
@[simp] theorem setKey_pc (k : KeyIdx) (p : Bool) : (s.setKey k p).pc = s.pc := rfl
@[simp] theorem setKey_stack (k : KeyIdx) (p : Bool) : (s.setKey k p).stack = s.stack := rfl
@[simp] theorem setKey_sp (k : KeyIdx) (p : Bool) : (s.setKey k p).sp = s.sp := rfl
@[simp] theorem setKey_dt (k : KeyIdx) (p : Bool) : (s.setKey k p).dt = s.dt := rfl
@[simp] theorem setKey_st (k : KeyIdx) (p : Bool) : (s.setKey k p).st = s.st := rfl
@[simp] theorem setKey_fb (k : KeyIdx) (p : Bool) : (s.setKey k p).fb = s.fb := rfl
@[simp] theorem setKey_key (k : KeyIdx) (p : Bool) : (s.setKey k p).key = s.key.set k.val p k.isLt := rfl
@[simp] theorem setKey_waitActive (k : KeyIdx) (p : Bool) : (s.setKey k p).waitActive = s.waitActive := rfl
@[simp] theorem setKey_waitReg (k : KeyIdx) (p : Bool) : (s.setKey k p).waitReg = s.waitReg := rfl
@[simp] theorem setKey_waitKey (k : KeyIdx) (p : Bool) : (s.setKey k p).waitKey = s.waitKey := rfl
@[simp] theorem setKey_params (k : KeyIdx) (p : Bool) : (s.setKey k p).params = s.params := rfl
@[simp] theorem setKey_drawCount (k : KeyIdx) (p : Bool) : (s.setKey k p).drawCount = s.drawCount := rfl
@[simp] theorem setKey_getV (k : KeyIdx) (p : Bool) (r : RegIdx) : (s.setKey k p).getV r = s.getV r := rfl
@[simp] theorem setKey_byteAt (k : KeyIdx) (p : Bool) (d : Nat) : (s.setKey k p).byteAt d = s.byteAt d := rfl
@[simp] theorem setKey_pixel (k : KeyIdx) (p : Bool) (px : Fin 64) (py : Fin 32) : (s.setKey k p).pixel px py = s.pixel px py := rfl
@[simp] theorem setKey_dataAddr (k : KeyIdx) (p : Bool) (d : Nat) : (s.setKey k p).dataAddr d = s.dataAddr d := rfl
@[simp] theorem setKey_dataByte (k : KeyIdx) (p : Bool) (d : Nat) : (s.setKey k p).dataByte d = s.dataByte d := rfl
@[simp] theorem setKey_wordAt (k : KeyIdx) (p : Bool) (d : Nat) : (s.setKey k p).wordAt d = s.wordAt d := rfl
@[simp] theorem setKey_fetch (k : KeyIdx) (p : Bool) : (s.setKey k p).fetch = s.fetch := rfl
@[simp] theorem setKey_shiftReg (k : KeyIdx) (p : Bool) (vx vy : RegIdx) : (s.setKey k p).shiftReg vx vy = s.shiftReg vx vy := rfl

/-! ### `armLatch` -/

@[simp] theorem armLatch_mem (x : RegIdx) : (s.armLatch x).mem = s.mem := rfl
@[simp] theorem armLatch_v (x : RegIdx) : (s.armLatch x).v = s.v := rfl
@[simp] theorem armLatch_i (x : RegIdx) : (s.armLatch x).i = s.i := rfl
@[simp] theorem armLatch_pc (x : RegIdx) : (s.armLatch x).pc = s.pc := rfl
@[simp] theorem armLatch_stack (x : RegIdx) : (s.armLatch x).stack = s.stack := rfl
@[simp] theorem armLatch_sp (x : RegIdx) : (s.armLatch x).sp = s.sp := rfl
@[simp] theorem armLatch_dt (x : RegIdx) : (s.armLatch x).dt = s.dt := rfl
@[simp] theorem armLatch_st (x : RegIdx) : (s.armLatch x).st = s.st := rfl
@[simp] theorem armLatch_fb (x : RegIdx) : (s.armLatch x).fb = s.fb := rfl
@[simp] theorem armLatch_key (x : RegIdx) : (s.armLatch x).key = s.key := rfl
@[simp] theorem armLatch_waitActive (x : RegIdx) : (s.armLatch x).waitActive = true := rfl
@[simp] theorem armLatch_waitReg (x : RegIdx) : (s.armLatch x).waitReg = x := rfl
@[simp] theorem armLatch_waitKey (x : RegIdx) : (s.armLatch x).waitKey = none := rfl
@[simp] theorem armLatch_params (x : RegIdx) : (s.armLatch x).params = s.params := rfl
@[simp] theorem armLatch_drawCount (x : RegIdx) : (s.armLatch x).drawCount = s.drawCount := rfl
@[simp] theorem armLatch_getV (x : RegIdx) (r : RegIdx) : (s.armLatch x).getV r = s.getV r := rfl
@[simp] theorem armLatch_getKey (x : RegIdx) (q : KeyIdx) : (s.armLatch x).getKey q = s.getKey q := rfl
@[simp] theorem armLatch_byteAt (x : RegIdx) (d : Nat) : (s.armLatch x).byteAt d = s.byteAt d := rfl
@[simp] theorem armLatch_pixel (x : RegIdx) (px : Fin 64) (py : Fin 32) : (s.armLatch x).pixel px py = s.pixel px py := rfl
@[simp] theorem armLatch_dataAddr (x : RegIdx) (d : Nat) : (s.armLatch x).dataAddr d = s.dataAddr d := rfl
@[simp] theorem armLatch_dataByte (x : RegIdx) (d : Nat) : (s.armLatch x).dataByte d = s.dataByte d := rfl
@[simp] theorem armLatch_wordAt (x : RegIdx) (d : Nat) : (s.armLatch x).wordAt d = s.wordAt d := rfl
@[simp] theorem armLatch_fetch (x : RegIdx) : (s.armLatch x).fetch = s.fetch := rfl
@[simp] theorem armLatch_shiftReg (x : RegIdx) (vx vy : RegIdx) : (s.armLatch x).shiftReg vx vy = s.shiftReg vx vy := rfl

/-! ### `clearLatch` -/

@[simp] theorem clearLatch_mem : (s.clearLatch).mem = s.mem := rfl
@[simp] theorem clearLatch_v : (s.clearLatch).v = s.v := rfl
@[simp] theorem clearLatch_i : (s.clearLatch).i = s.i := rfl
@[simp] theorem clearLatch_pc : (s.clearLatch).pc = s.pc := rfl
@[simp] theorem clearLatch_stack : (s.clearLatch).stack = s.stack := rfl
@[simp] theorem clearLatch_sp : (s.clearLatch).sp = s.sp := rfl
@[simp] theorem clearLatch_dt : (s.clearLatch).dt = s.dt := rfl
@[simp] theorem clearLatch_st : (s.clearLatch).st = s.st := rfl
@[simp] theorem clearLatch_fb : (s.clearLatch).fb = s.fb := rfl
@[simp] theorem clearLatch_key : (s.clearLatch).key = s.key := rfl
@[simp] theorem clearLatch_waitActive : (s.clearLatch).waitActive = false := rfl
@[simp] theorem clearLatch_waitReg : (s.clearLatch).waitReg = 0 := rfl
@[simp] theorem clearLatch_waitKey : (s.clearLatch).waitKey = none := rfl
@[simp] theorem clearLatch_params : (s.clearLatch).params = s.params := rfl
@[simp] theorem clearLatch_drawCount : (s.clearLatch).drawCount = s.drawCount := rfl
@[simp] theorem clearLatch_getV (r : RegIdx) : (s.clearLatch).getV r = s.getV r := rfl
@[simp] theorem clearLatch_getKey (q : KeyIdx) : (s.clearLatch).getKey q = s.getKey q := rfl
@[simp] theorem clearLatch_byteAt (d : Nat) : (s.clearLatch).byteAt d = s.byteAt d := rfl
@[simp] theorem clearLatch_pixel (px : Fin 64) (py : Fin 32) : (s.clearLatch).pixel px py = s.pixel px py := rfl
@[simp] theorem clearLatch_dataAddr (d : Nat) : (s.clearLatch).dataAddr d = s.dataAddr d := rfl
@[simp] theorem clearLatch_dataByte (d : Nat) : (s.clearLatch).dataByte d = s.dataByte d := rfl
@[simp] theorem clearLatch_wordAt (d : Nat) : (s.clearLatch).wordAt d = s.wordAt d := rfl
@[simp] theorem clearLatch_fetch : (s.clearLatch).fetch = s.fetch := rfl
@[simp] theorem clearLatch_shiftReg (vx vy : RegIdx) : (s.clearLatch).shiftReg vx vy = s.shiftReg vx vy := rfl

/-! ### `recordKey` -/

@[simp] theorem recordKey_mem (k : KeyIdx) : (s.recordKey k).mem = s.mem := rfl
@[simp] theorem recordKey_v (k : KeyIdx) : (s.recordKey k).v = s.v := rfl
@[simp] theorem recordKey_i (k : KeyIdx) : (s.recordKey k).i = s.i := rfl
@[simp] theorem recordKey_pc (k : KeyIdx) : (s.recordKey k).pc = s.pc := rfl
@[simp] theorem recordKey_stack (k : KeyIdx) : (s.recordKey k).stack = s.stack := rfl
@[simp] theorem recordKey_sp (k : KeyIdx) : (s.recordKey k).sp = s.sp := rfl
@[simp] theorem recordKey_dt (k : KeyIdx) : (s.recordKey k).dt = s.dt := rfl
@[simp] theorem recordKey_st (k : KeyIdx) : (s.recordKey k).st = s.st := rfl
@[simp] theorem recordKey_fb (k : KeyIdx) : (s.recordKey k).fb = s.fb := rfl
@[simp] theorem recordKey_key (k : KeyIdx) : (s.recordKey k).key = s.key := rfl
@[simp] theorem recordKey_waitActive (k : KeyIdx) : (s.recordKey k).waitActive = s.waitActive := rfl
@[simp] theorem recordKey_waitReg (k : KeyIdx) : (s.recordKey k).waitReg = s.waitReg := rfl
@[simp] theorem recordKey_waitKey (k : KeyIdx) : (s.recordKey k).waitKey = some k := rfl
@[simp] theorem recordKey_params (k : KeyIdx) : (s.recordKey k).params = s.params := rfl
@[simp] theorem recordKey_drawCount (k : KeyIdx) : (s.recordKey k).drawCount = s.drawCount := rfl
@[simp] theorem recordKey_getV (k : KeyIdx) (r : RegIdx) : (s.recordKey k).getV r = s.getV r := rfl
@[simp] theorem recordKey_getKey (k : KeyIdx) (q : KeyIdx) : (s.recordKey k).getKey q = s.getKey q := rfl
@[simp] theorem recordKey_byteAt (k : KeyIdx) (d : Nat) : (s.recordKey k).byteAt d = s.byteAt d := rfl
@[simp] theorem recordKey_pixel (k : KeyIdx) (px : Fin 64) (py : Fin 32) : (s.recordKey k).pixel px py = s.pixel px py := rfl
@[simp] theorem recordKey_dataAddr (k : KeyIdx) (d : Nat) : (s.recordKey k).dataAddr d = s.dataAddr d := rfl
@[simp] theorem recordKey_dataByte (k : KeyIdx) (d : Nat) : (s.recordKey k).dataByte d = s.dataByte d := rfl
@[simp] theorem recordKey_wordAt (k : KeyIdx) (d : Nat) : (s.recordKey k).wordAt d = s.wordAt d := rfl
@[simp] theorem recordKey_fetch (k : KeyIdx) : (s.recordKey k).fetch = s.fetch := rfl
@[simp] theorem recordKey_shiftReg (k : KeyIdx) (vx vy : RegIdx) : (s.recordKey k).shiftReg vx vy = s.shiftReg vx vy := rfl

end Sys2Proof.Machine.State
end

