-- ==== Sys2Proof/Laws/Memory.lean ====
section
/-! SUPPORT. Memory: a write keeps the canonical form, and a read after a write gives the written byte at the written
address and the old byte everywhere else (20_memory.md R30, R37). -/

namespace Sys2Proof.Machine

theorem eff_lt (a : Nat) : eff a < Config.memSize := Nat.mod_lt _ (by decide)

theorem eff_of_lt {a : Nat} (h : a < Config.memSize) : eff a = a := Nat.mod_eq_of_lt h

@[simp] theorem eff_eff (a : Nat) : eff (eff a) = eff a := eff_of_lt (eff_lt a)

namespace Memory

theorem wfFrom_cons {lo k : Nat} {c : Byte} {m : Memory} :
    wfFrom lo ((k, c) :: m) = true ↔ lo ≤ k ∧ k < Config.memSize ∧ c ≠ resetByte k ∧ wfFrom (k + 1) m = true := by
  simp [wfFrom, and_assoc]

theorem wfFrom_mono {lo lo' : Nat} (h : lo' ≤ lo) {m : Memory} (hm : wfFrom lo m = true) : wfFrom lo' m = true := by
  cases m with
  | nil => rfl
  | cons p m => obtain ⟨k, c⟩ := p; rw [wfFrom_cons] at hm ⊢; exact ⟨by omega, hm.2⟩

/-- Below the first cell nothing is listed. -/
theorem read_of_lt_lo {lo a : Nat} (h : a < lo) {m : Memory} (hm : wfFrom lo m = true) : m.read a = resetByte a := by
  induction m generalizing lo with
  | nil => rfl
  | cons p m ih =>
    obtain ⟨k, c⟩ := p
    rw [wfFrom_cons] at hm
    have hk : k ≠ a := by omega
    simp [read, hk, ih (lo := k + 1) (by omega) hm.2.2.2]

theorem wfFrom_consCell {lo a : Nat} {b : Byte} {m : Memory} (hlo : lo ≤ a) (ha : a < Config.memSize)
    (hm : wfFrom (a + 1) m = true) : wfFrom lo (cons a b m) = true := by
  unfold cons
  split
  · exact wfFrom_mono (by omega) hm
  · rw [wfFrom_cons]; exact ⟨hlo, ha, by assumption, hm⟩

theorem read_consCell {a : Nat} {b : Byte} {m : Memory} (hm : wfFrom (a + 1) m = true) (q : Nat) :
    (cons a b m).read q = if q = a then b else m.read q := by
  unfold cons
  by_cases hq : q = a
  · subst hq
    split
    · next hb => simp [hb, read_of_lt_lo (Nat.lt_succ_self q) hm]
    · simp [read]
  · rw [if_neg hq]
    split
    · rfl
    · simp [read, Ne.symm hq]

theorem wfFrom_write {lo a : Nat} {b : Byte} {m : Memory} (hm : wfFrom lo m = true) (hlo : lo ≤ a)
    (ha : a < Config.memSize) : wfFrom lo (write m a b) = true := by
  induction m generalizing lo with
  | nil => exact wfFrom_consCell hlo ha rfl
  | cons p m ih =>
    obtain ⟨k, c⟩ := p
    have hm' := wfFrom_cons.1 hm
    unfold write
    split
    · exact wfFrom_consCell hlo ha (wfFrom_cons.2 ⟨by omega, hm'.2⟩)
    · split
      · next h => exact wfFrom_consCell hlo ha (h ▸ hm'.2.2.2)
      · exact wfFrom_cons.2 ⟨hm'.1, hm'.2.1, hm'.2.2.1, ih hm'.2.2.2 (by omega)⟩

/-- Every write below 4096 keeps the canonical form. -/
theorem wf_write {m : Memory} (hm : m.wf = true) {a : Nat} (ha : a < Config.memSize) (b : Byte) :
    (m.write a b).wf = true := wfFrom_write hm (Nat.zero_le a) ha

theorem read_write_from {lo a : Nat} {b : Byte} {m : Memory} (hm : wfFrom lo m = true) (q : Nat) :
    (write m a b).read q = if q = a then b else m.read q := by
  induction m generalizing lo with
  | nil => exact read_consCell rfl q
  | cons p m ih =>
    obtain ⟨k, c⟩ := p
    have hm' := wfFrom_cons.1 hm
    unfold write
    split
    · exact read_consCell (wfFrom_cons.2 ⟨by omega, hm'.2⟩) q
    · split
      · next h =>
        rw [read_consCell (h ▸ hm'.2.2.2)]
        by_cases hq : q = a <;> simp [hq, read, ← h]
        exact fun h' => absurd h'.symm hq
      · next h1 h2 =>
        by_cases hk : k = q
        · have : q ≠ a := by omega
          simp [read, hk, this]
        · simp [read, hk, ih hm'.2.2.2]

/-- A read after a write. -/
theorem read_write {m : Memory} (hm : m.wf = true) (a : Nat) (b : Byte) (q : Nat) :
    (m.write a b).read q = if q = a then b else m.read q := read_write_from hm q

theorem wf_writeBytes {m : Memory} (hm : m.wf = true) (a : Nat) (bs : List Byte) (h : a + bs.length ≤ Config.memSize) :
    (m.writeBytes a bs).wf = true := by
  induction bs generalizing m a with
  | nil => exact hm
  | cons b bs ih =>
    rw [List.length_cons] at h
    exact ih (wf_write hm (by omega) b) (a + 1) (by omega)

/-- What writing a block of bytes does: the block holds the bytes, everything else is as before. -/
theorem read_writeBytes {m : Memory} (hm : m.wf = true) (a : Nat) (bs : List Byte)
    (h : a + bs.length ≤ Config.memSize) (q : Nat) :
    (m.writeBytes a bs).read q = if a ≤ q ∧ q < a + bs.length then bs.getD (q - a) 0 else m.read q := by
  induction bs generalizing m a with
  | nil => have : ¬ (a ≤ q ∧ q < a) := by omega
           simp [writeBytes, this]
  | cons b bs ih =>
    rw [List.length_cons] at h
    rw [writeBytes, ih (wf_write hm (by omega) b) (a + 1) (by omega), read_write hm]
    rcases Nat.lt_trichotomy q a with hq | hq | hq
    · rw [if_neg (by omega), if_neg (by omega), if_neg (by omega)]
    · subst hq
      rw [if_neg (by omega), if_pos rfl, if_pos (by simp)]; simp
    · obtain ⟨d, rfl⟩ : ∃ d, q = a + 1 + d := ⟨q - (a + 1), by omega⟩
      by_cases hd : d < bs.length
      · rw [if_pos (by omega), if_pos (by simp only [List.length_cons]; omega)]
        have e1 : a + 1 + d - (a + 1) = d := by omega
        have e2 : a + 1 + d - a = d + 1 := by omega
        rw [e1, e2, List.getD_cons_succ]
      · rw [if_neg (by omega), if_neg (by omega), if_neg (by simp only [List.length_cons]; omega)]

/-- Memory after `reset` is in canonical form for every FONT. -/
theorem wf_afterReset (font : Font) : (afterReset font).wf = true :=
  wf_writeBytes rfl _ _ (by simp [Config.memSize])

end Memory

namespace State

variable (s : State)

theorem wf_setByte (h : s.mem.wf = true) (a : Nat) (b : Byte) : (s.setByte a b).mem.wf = true :=
  Memory.wf_write h (eff_lt a) b

theorem byteAt_setByte (h : s.mem.wf = true) (a : Nat) (b : Byte) (q : Nat) :
    (s.setByte a b).byteAt q = if eff q = eff a then b else s.byteAt q := Memory.read_write h _ _ _

theorem byteAt_eff (q : Nat) : s.byteAt (eff q) = s.byteAt q := by simp [byteAt]

theorem wf_setDataByte (h : s.mem.wf = true) (k : Nat) (b : Byte) : (s.setDataByte k b).mem.wf = true :=
  s.wf_setByte h _ b

theorem byteAt_setDataByte (h : s.mem.wf = true) (k : Nat) (b : Byte) (q : Nat) :
    (s.setDataByte k b).byteAt q = if eff q = eff (s.dataAddr k) then b else s.byteAt q := s.byteAt_setByte h _ _ _

theorem wf_setWord (h : s.mem.wf = true) (a : Nat) (w : Word) : (s.setWord a w).mem.wf = true :=
  wf_setByte _ (s.wf_setByte h _ _) _ _

theorem wf_copyRom (h : s.mem.wf = true) (rom : List Byte) : (s.copyRom rom).mem.wf = true :=
  Memory.wf_writeBytes h _ _ (by
    have := List.length_take_le Config.maxRom rom
    simp only [Config.progBase, Config.maxRom, Config.memSize] at *; omega)

theorem wf_resetCommand : s.resetCommand.mem.wf = true := Memory.wf_afterReset _

end State

end Sys2Proof.Machine
end

