-- ==== Sys2Proof/Laws/Ops.lean ====
section
/-! SUPPORT. One lemma per shared operation that says everything it can do: registers, keys, pixels, the stack, the
loops of STORE and LOAD. -/

namespace Sys2Proof.Machine

namespace State

variable (s : State)

/-! ### Registers and keys -/

theorem getV_setV (x : RegIdx) (b : Byte) (r : RegIdx) : (s.setV x b).getV r = if r = x then b else s.getV r := by
  simp only [getV, setV, Vector.get_eq_getElem, Vector.getElem_set]
  by_cases h : r = x
  · simp [h]
  · rw [if_neg (fun e => h (Fin.ext e.symm)), if_neg h]

@[simp] theorem getV_setV_self (x : RegIdx) (b : Byte) : (s.setV x b).getV x = b := by simp [getV_setV]

theorem getV_setV_ne {x r : RegIdx} (h : r ≠ x) (b : Byte) : (s.setV x b).getV r = s.getV r := by simp [getV_setV, h]

theorem getV_setFlag (c : Bool) (r : RegIdx) : (s.setFlag c).getV r = if r = VF then flagByte c else s.getV r :=
  s.getV_setV _ _ _

/-- The flag is written last, so it wins where V[x] is VF. -/
theorem getV_setResultFlag (x : RegIdx) (b : Byte) (c : Bool) (r : RegIdx) :
    (s.setResultFlag x b c).getV r = if r = VF then flagByte c else if r = x then b else s.getV r := by
  rw [setResultFlag, getV_setFlag, getV_setV]

theorem getKey_setKey (k : KeyIdx) (p : Bool) (q : KeyIdx) : (s.setKey k p).getKey q = if q = k then p else s.getKey q := by
  simp only [getKey, setKey, Vector.get_eq_getElem, Vector.getElem_set]
  by_cases h : q = k
  · simp [h]
  · rw [if_neg (fun e => h (Fin.ext e.symm)), if_neg h]

/-- A state is determined by its registers as they are read. -/
theorem v_ext {t : State} (h : ∀ r, t.getV r = s.getV r) : t.v = s.v := by
  exact Vector.ext fun k hk => by simpa [getV, Vector.get_eq_getElem] using h ⟨k, hk⟩

/-! ### Program counter -/

theorem retreat_advance : s.advance.retreat = s := by simp [advance, retreat, setPc]

theorem skipIf_eq (c : Bool) : s.skipIf c = s.setPc (if c then s.pc + 2 else s.pc) := by cases c <;> rfl

/-! ### Call stack -/

/-- Everything `push` can do. -/
theorem push_cases (w : Word) :
    (s.sp.val = 16 ∧ s.push w = .error .stackOverflow) ∨
    (∃ h : s.sp.val < 16, s.push w = .ok { s with stack := s.stack.set s.sp.val w h, sp := ⟨s.sp.val + 1, by omega⟩ }) := by
  have := s.sp.isLt
  by_cases h : s.sp.val < 16
  · exact .inr ⟨h, by simp [push, h]⟩
  · exact .inl ⟨by omega, by simp [push, h]⟩

/-- Everything `pop` can do. -/
theorem pop_cases :
    (s.sp.val = 0 ∧ s.pop = .error .stackUnderflow) ∨
    (∃ h : 0 < s.sp.val, s.pop = .ok (s.stack[s.sp.val - 1]'(by have := s.sp.isLt; omega),
      { s with sp := ⟨s.sp.val - 1, by have := s.sp.isLt; omega⟩ })) := by
  by_cases h : 0 < s.sp.val
  · exact .inr ⟨h, by simp [pop, h]⟩
  · exact .inl ⟨by omega, by simp [pop, h]⟩

end State

/-! ### Pixels -/

namespace Framebuffer

theorem get_flip (f : Framebuffer) (x : Fin 64) (y : Fin 32) (u : Fin 64) (v : Fin 32) :
    Framebuffer.get (flip f x y) u v = if u = x ∧ v = y then !Framebuffer.get f x y else Framebuffer.get f u v := by
  simp only [Framebuffer.get, flip, Vector.get_eq_getElem, Vector.getElem_set]
  by_cases hv : v = y
  · subst hv
    by_cases hu : u = x
    · subst hu; simp
    · have : ¬ x.val = u.val := fun e => hu (Fin.ext e.symm)
      simp [hu, this]
  · have : ¬ y.val = v.val := fun e => hv (Fin.ext e.symm)
    simp [hv, this]

@[simp] theorem get_blank (u : Fin 64) (v : Fin 32) : Framebuffer.get blank u v = false := by
  simp [Framebuffer.get, blank, Vector.get_eq_getElem]

/-- A framebuffer is determined by its pixels. -/
theorem ext_get {f g : Framebuffer} (h : ∀ x y, Framebuffer.get f x y = Framebuffer.get g x y) : f = g := by
  exact Vector.ext fun r hr => Vector.ext fun c hc => by
    simpa [Framebuffer.get, Vector.get_eq_getElem] using h ⟨c, hc⟩ ⟨r, hr⟩

end Framebuffer

namespace State

variable (s : State)

/-! ### The loops of STORE and LOAD -/

/-- STORE's loop writes memory only. -/
theorem storeRegs_eq (n : Nat) : s.storeRegs n = s.setMem (s.storeRegs n).mem := by
  induction n with
  | zero => rfl
  | succ k ih => rw [storeRegs, ih]; rfl

theorem wf_storeRegs (h : s.mem.wf = true) (n : Nat) : (s.storeRegs n).mem.wf = true := by
  induction n with
  | zero => exact h
  | succ k ih => exact wf_setDataByte _ ih _ _

/-- LOAD's loop writes V registers only. -/
theorem loadRegs_eq (n : Nat) : s.loadRegs n = { s with v := (s.loadRegs n).v } := by
  induction n with
  | zero => rfl
  | succ k ih => rw [loadRegs, ih]; rfl

/-- The data addresses of 16 consecutive bytes are distinct. -/
theorem eff_add_inj {i j k : Nat} (hj : j < 16) (hk : k < 16) : eff (i + j) = eff (i + k) ↔ j = k := by
  simp only [eff, Config.memSize]; omega

/-- Everything STORE's loop does to memory: the bytes written, and no other. -/
theorem byteAt_storeRegs (h : s.mem.wf = true) {n : Nat} (hn : n ≤ 16) :
    (∀ k : RegIdx, k.val < n → (s.storeRegs n).byteAt (s.dataAddr k.val) = s.getV k) ∧
    (∀ a, (∀ k, k < n → eff a ≠ eff (s.dataAddr k)) → (s.storeRegs n).byteAt a = s.byteAt a) := by
  induction n with
  | zero => exact ⟨fun k hk => absurd hk (by omega), fun a _ => rfl⟩
  | succ n ih =>
    obtain ⟨inside, outside⟩ := ih (by omega)
    have addr : (s.storeRegs n).dataAddr n = s.dataAddr n := by rw [s.storeRegs_eq n]; rfl
    have wf := s.wf_storeRegs h n
    constructor
    · intro k hk
      rw [storeRegs, byteAt_setDataByte _ wf, addr]
      simp only [dataAddr, eff_add_inj k.isLt (show n < 16 by omega)]
      split
      · next e => congr 1; apply Fin.ext; simp [e]; omega
      · exact inside k (by omega)
    · intro a ha
      rw [storeRegs, byteAt_setDataByte _ wf, addr, if_neg (ha n (by omega))]
      exact outside a fun k hk => ha k (by omega)

/-- Everything LOAD's loop does to the registers. -/
theorem getV_loadRegs {n : Nat} (hn : n ≤ 16) (k : RegIdx) :
    (s.loadRegs n).getV k = if k.val < n then s.dataByte k.val else s.getV k := by
  induction n with
  | zero => simp [loadRegs]
  | succ n ih =>
    have same : k = Fin.ofNat 16 n ↔ k.val = n := by
      constructor
      · rintro rfl; simp; omega
      · intro e; apply Fin.ext; simp [e]; omega
    rw [loadRegs, getV_setV, ih (by omega)]
    simp only [same]
    split
    · next e => rw [if_pos (by omega), e]
    · split
      · rw [if_pos (by omega)]
      · rw [if_neg (by omega)]

theorem wf_storeDigits (h : s.mem.wf = true) (b : Byte) : (s.storeDigits b).mem.wf = true :=
  wf_setDataByte _ (wf_setDataByte _ (wf_setDataByte _ h _ _) _ _) _ _

/-- BCD's writes touch memory only. -/
theorem storeDigits_eq (b : Byte) : s.storeDigits b = s.setMem (s.storeDigits b).mem := rfl

end State

end Sys2Proof.Machine
end

