-- ==== Sys2Proof/Laws/Drawing.lean ====
section
/-! SUPPORT. Everything the loops of DRAW do (44_display.md R92): the pixels toggled and the collision, first for one sprite
row, then for the whole sprite. The pixels of one sprite are distinct, so each is toggled once. -/

namespace Sys2Proof.Machine

theorem Drawing.toggle_get (d : Drawing) (px u : Fin 64) (py v : Fin 32) :
    Framebuffer.get (d.toggle px py).fb u v = if u = px ∧ v = py then !Framebuffer.get d.fb px py else Framebuffer.get d.fb u v :=
  Framebuffer.get_flip _ _ _ _ _

theorem Drawing.toggle_hit (d : Drawing) (px : Fin 64) (py : Fin 32) :
    (d.toggle px py).hit = (d.hit || Framebuffer.get d.fb px py) := rfl

theorem eq_drawColumn (x0 : Byte) (c : Nat) (u : Fin 64) : u = drawColumn x0 c ↔ u.val = (x0.toNat + c) % 64 := by
  constructor
  · rintro rfl; rfl
  · exact fun h => Fin.ext h

theorem eq_drawLine (y0 : Byte) (r : Nat) (v : Fin 32) : v = drawLine y0 r ↔ v.val = (y0.toNat + r) % 32 := by
  constructor
  · rintro rfl; rfl
  · exact fun h => Fin.ext h

/-- Some set bit among the first n columns of the row byte lands on column u. -/
def ColumnSet (x0 : Byte) (b : Byte) (n : Nat) (u : Fin 64) : Prop := ∃ c, c < n ∧ u = drawColumn x0 c ∧ b.getLsbD (7 - c) = true

theorem columns_spec (d : Drawing) (x0 : Byte) (py : Fin 32) (b : Byte) (n : Nat) (hn : n ≤ 8) :
    (∀ u v, (v = py ∧ ColumnSet x0 b n u) → Framebuffer.get (d.columns x0 py b n).fb u v = !Framebuffer.get d.fb u v) ∧
    (∀ u v, ¬ (v = py ∧ ColumnSet x0 b n u) → Framebuffer.get (d.columns x0 py b n).fb u v = Framebuffer.get d.fb u v) ∧
    ((d.columns x0 py b n).hit = true ↔ d.hit = true ∨ ∃ u, ColumnSet x0 b n u ∧ Framebuffer.get d.fb u py = true) := by
  induction n with
  | zero => refine ⟨?_, ?_, ?_⟩ <;> simp [ColumnSet, Drawing.columns]
  | succ n ih =>
    obtain ⟨i1, i2, i3⟩ := ih (by omega)
    have hnew : ¬ ColumnSet x0 b n (drawColumn x0 n) := by
      rintro ⟨c, hc, h, _⟩; rw [eq_drawColumn] at h; simp [drawColumn] at h; omega
    by_cases hb : b.getLsbD (7 - n) = true
    · have hc : ∀ u, ColumnSet x0 b (n+1) u ↔ u = drawColumn x0 n ∨ ColumnSet x0 b n u := by
        intro u; constructor
        · rintro ⟨c, h1, h2, h3⟩
          by_cases h : c = n
          · subst h; exact .inl h2
          · exact .inr ⟨c, by omega, h2, h3⟩
        · rintro (h | ⟨c, h1, h2, h3⟩)
          · exact ⟨n, by omega, h, hb⟩
          · exact ⟨c, by omega, h2, h3⟩
      have e : d.columns x0 py b (n+1) = (d.columns x0 py b n).toggle (drawColumn x0 n) py := by simp [Drawing.columns, spriteBit, hb]
      have hold := i2 (drawColumn x0 n) py (fun h => hnew h.2)
      rw [e]
      refine ⟨?_, ?_, ?_⟩
      · rintro u v ⟨rfl, h⟩
        rw [Drawing.toggle_get]
        by_cases hu : u = drawColumn x0 n
        · subst hu; simp [hold]
        · simp [hu]; exact i1 u v ⟨rfl, ((hc u).1 h).resolve_left hu⟩
      · intro u v h
        rw [Drawing.toggle_get, if_neg]
        · exact i2 u v (fun h' => h ⟨h'.1, (hc u).2 (.inr h'.2)⟩)
        · rintro ⟨rfl, rfl⟩; exact h ⟨rfl, (hc _).2 (.inl rfl)⟩
      · rw [Drawing.toggle_hit, Bool.or_eq_true, i3, hold, or_assoc]
        apply or_congr Iff.rfl
        constructor
        · rintro (⟨u, h, h'⟩ | h)
          · exact ⟨u, (hc u).2 (.inr h), h'⟩
          · exact ⟨_, (hc _).2 (.inl rfl), h⟩
        · rintro ⟨u, h, h'⟩
          rcases (hc u).1 h with rfl | h
          · exact .inr h'
          · exact .inl ⟨u, h, h'⟩
    · have hc : ∀ u, ColumnSet x0 b (n+1) u ↔ ColumnSet x0 b n u := by
        intro u; constructor
        · rintro ⟨c, h1, h2, h3⟩
          exact ⟨c, by have : c ≠ n := by rintro rfl; exact hb h3
                       omega, h2, h3⟩
        · rintro ⟨c, h1, h2, h3⟩
          exact ⟨c, by omega, h2, h3⟩
      have e : d.columns x0 py b (n+1) = d.columns x0 py b n := by simp [Drawing.columns, spriteBit, hb]
      rw [e]; simp only [hc]; exact ⟨i1, i2, i3⟩

/-- Some set bit among the first n rows of the sprite lands on column u of row v. -/
def SpriteSet (x0 y0 : Byte) (row : Nat → Byte) (n : Nat) (u : Fin 64) (v : Fin 32) : Prop := ∃ r, r < n ∧ v = drawLine y0 r ∧ ColumnSet x0 (row r) 8 u

theorem rows_spec (d : Drawing) (x0 y0 : Byte) (row : Nat → Byte) (n : Nat) (hn : n ≤ 32) :
    (∀ u v, SpriteSet x0 y0 row n u v → Framebuffer.get (d.rows x0 y0 row n).fb u v = !Framebuffer.get d.fb u v) ∧
    (∀ u v, ¬ SpriteSet x0 y0 row n u v → Framebuffer.get (d.rows x0 y0 row n).fb u v = Framebuffer.get d.fb u v) ∧
    ((d.rows x0 y0 row n).hit = true ↔ d.hit = true ∨ ∃ u v, SpriteSet x0 y0 row n u v ∧ Framebuffer.get d.fb u v = true) := by
  induction n with
  | zero => refine ⟨?_, ?_, ?_⟩ <;> simp [SpriteSet, Drawing.rows]
  | succ n ih =>
    obtain ⟨i1, i2, i3⟩ := ih (by omega)
    have hnew : ∀ u, ¬ SpriteSet x0 y0 row n u (drawLine y0 n) := by
      rintro u ⟨c, hc, h, _⟩; rw [eq_drawLine] at h; simp [drawLine] at h; omega
    have hc : ∀ u v, SpriteSet x0 y0 row (n+1) u v ↔ (v = drawLine y0 n ∧ ColumnSet x0 (row n) 8 u) ∨ SpriteSet x0 y0 row n u v := by
      intro u v; constructor
      · rintro ⟨c, h1, h2, h3⟩
        by_cases h : c = n
        · subst h; exact .inl ⟨h2, h3⟩
        · exact .inr ⟨c, by omega, h2, h3⟩
      · rintro (⟨h, h'⟩ | ⟨c, h1, h2, h3⟩)
        · exact ⟨n, by omega, h, h'⟩
        · exact ⟨c, by omega, h2, h3⟩
    obtain ⟨j1, j2, j3⟩ := columns_spec (d.rows x0 y0 row n) x0 (drawLine y0 n) (row n) 8 (by omega)
    have e : d.rows x0 y0 row (n+1) = (d.rows x0 y0 row n).columns x0 (drawLine y0 n) (row n) 8 := rfl
    rw [e]
    refine ⟨?_, ?_, ?_⟩
    · intro u v h
      by_cases h' : v = drawLine y0 n ∧ ColumnSet x0 (row n) 8 u
      · rw [j1 u v h', i2 u v]; rw [h'.1]; exact hnew u
      · rw [j2 u v h', i1 u v (((hc u v).1 h).resolve_left h')]
    · intro u v h
      rw [j2 u v (fun h' => h ((hc u v).2 (.inl h'))), i2 u v (fun h' => h ((hc u v).2 (.inr h')))]
    · rw [j3, i3, or_assoc]
      apply or_congr Iff.rfl
      constructor
      · rintro (⟨u, v, h, h'⟩ | ⟨u, h, h'⟩)
        · exact ⟨u, v, (hc u v).2 (.inr h), h'⟩
        · rw [i2 u _ (hnew u)] at h'; exact ⟨u, _, (hc u _).2 (.inl ⟨rfl, h⟩), h'⟩
      · rintro ⟨u, v, h, h'⟩
        rcases (hc u v).1 h with ⟨hv, hh⟩ | h
        · subst hv; exact .inr ⟨u, hh, by rw [i2 u _ (hnew u)]; exact h'⟩
        · exact .inl ⟨u, v, h, h'⟩

end Sys2Proof.Machine
end

