-- ==== Sys2Proof/Laws/Encoding.lean ====
section
/-! SUPPORT. The fields of an encoded word, format by format (30_encoding.md R41, R42), and what a match against a mask
says of a word's fields (R44). -/

namespace Sys2Proof

@[simp] theorem nibble_toFin (x : Fin 16) : (nibble x).toFin = x := rfl

theorem nibble_toNat (x : Fin 16) : (nibble x).toNat = x.val := rfl

theorem append_toNat {n m : Nat} (a : BitVec n) (b : BitVec m) : (a ++ b).toNat = a.toNat * 2 ^ m + b.toNat := by
  rw [BitVec.toNat_append, ← Nat.shiftLeft_add_eq_or_of_lt b.isLt, Nat.shiftLeft_eq]

theorem extract_toNat {n : Nat} (w : BitVec n) (s l : Nat) : (w.extractLsb' s l).toNat = w.toNat / 2 ^ s % 2 ^ l := by
  rw [BitVec.extractLsb'_toNat, Nat.shiftRight_eq_div_pow]

/-! ### Words and their fields as numbers -/

theorem fieldD1_toNat (w : Word) : (fieldD1 w).toNat = w.toNat / 4096 % 16 := extract_toNat w 12 4
theorem fieldD2_toNat (w : Word) : (fieldD2 w).toNat = w.toNat / 256 % 16 := extract_toNat w 8 4
theorem fieldD3_toNat (w : Word) : (fieldD3 w).toNat = w.toNat / 16 % 16 := extract_toNat w 4 4
theorem fieldD4_toNat (w : Word) : (fieldD4 w).toNat = w.toNat / 1 % 16 := extract_toNat w 0 4
theorem fieldNn_toNat (w : Word) : (fieldNn w).toNat = w.toNat / 1 % 256 := extract_toNat w 0 8
theorem fieldNnn_toNat (w : Word) : (fieldNnn w).toNat = w.toNat / 1 % 4096 := extract_toNat w 0 12

theorem fieldX_val (w : Word) : (fieldX w).val = w.toNat / 256 % 16 := fieldD2_toNat w
theorem fieldY_val (w : Word) : (fieldY w).val = w.toNat / 16 % 16 := fieldD3_toNat w
theorem fieldN_val (w : Word) : (fieldN w).val = w.toNat / 1 % 16 := fieldD4_toNat w

theorem encodeNnn_toNat (d : BitVec 4) (nnn : Addr12) : (encodeNnn d nnn).toNat = d.toNat * 4096 + nnn.toNat :=
  append_toNat d nnn

theorem encodeXnn_toNat (d : BitVec 4) (x : RegIdx) (nn : Byte) :
    (encodeXnn d x nn).toNat = (d.toNat * 16 + x.val) * 256 + nn.toNat :=
  (append_toNat (d ++ nibble x) nn).trans (by rw [append_toNat]; rfl)

theorem encodeX_toNat (d : BitVec 4) (x : RegIdx) (nn : Byte) :
    (encodeX d x nn).toNat = (d.toNat * 16 + x.val) * 256 + nn.toNat := encodeXnn_toNat d x nn

theorem encodeXyn_toNat (d : BitVec 4) (x y : RegIdx) (e : BitVec 4) :
    (encodeXyn d x y e).toNat = ((d.toNat * 16 + x.val) * 16 + y.val) * 16 + e.toNat :=
  (append_toNat ((d ++ nibble x) ++ nibble y) e).trans (by rw [append_toNat, append_toNat]; rfl)

/-! ### The fields of an encoded word -/

section Nnn
variable (d : BitVec 4) (nnn : Addr12)

@[simp] theorem fieldD1_encodeNnn : fieldD1 (encodeNnn d nnn) = d := by
  apply BitVec.eq_of_toNat_eq
  rw [fieldD1_toNat, encodeNnn_toNat]
  have := d.isLt; have := nnn.isLt; omega

@[simp] theorem fieldNnn_encodeNnn : fieldNnn (encodeNnn d nnn) = nnn := by
  apply BitVec.eq_of_toNat_eq
  rw [fieldNnn_toNat, encodeNnn_toNat]
  have := d.isLt; have := nnn.isLt; omega

end Nnn

section Xnn
variable (d : BitVec 4) (x : RegIdx) (nn : Byte)

@[simp] theorem fieldD1_encodeXnn : fieldD1 (encodeXnn d x nn) = d := by
  apply BitVec.eq_of_toNat_eq
  rw [fieldD1_toNat, encodeXnn_toNat]
  have := d.isLt; have := nn.isLt; have := x.isLt; omega

@[simp] theorem fieldX_encodeXnn : fieldX (encodeXnn d x nn) = x := by
  apply Fin.ext
  rw [fieldX_val, encodeXnn_toNat]
  have := d.isLt; have := nn.isLt; have := x.isLt; omega

@[simp] theorem fieldNn_encodeXnn : fieldNn (encodeXnn d x nn) = nn := by
  apply BitVec.eq_of_toNat_eq
  rw [fieldNn_toNat, encodeXnn_toNat]
  have := d.isLt; have := nn.isLt; have := x.isLt; omega

@[simp] theorem fieldD1_encodeX : fieldD1 (encodeX d x nn) = d := fieldD1_encodeXnn d x nn
@[simp] theorem fieldX_encodeX : fieldX (encodeX d x nn) = x := fieldX_encodeXnn d x nn
@[simp] theorem fieldNn_encodeX : fieldNn (encodeX d x nn) = nn := fieldNn_encodeXnn d x nn

end Xnn

section Xyn
variable (d : BitVec 4) (x y : RegIdx) (e : BitVec 4)

@[simp] theorem fieldD1_encodeXyn : fieldD1 (encodeXyn d x y e) = d := by
  apply BitVec.eq_of_toNat_eq
  rw [fieldD1_toNat, encodeXyn_toNat]
  have := d.isLt; have := e.isLt; have := x.isLt; have := y.isLt; omega

@[simp] theorem fieldX_encodeXyn : fieldX (encodeXyn d x y e) = x := by
  apply Fin.ext
  rw [fieldX_val, encodeXyn_toNat]
  have := d.isLt; have := e.isLt; have := x.isLt; have := y.isLt; omega

@[simp] theorem fieldY_encodeXyn : fieldY (encodeXyn d x y e) = y := by
  apply Fin.ext
  rw [fieldY_val, encodeXyn_toNat]
  have := d.isLt; have := e.isLt; have := x.isLt; have := y.isLt; omega

@[simp] theorem fieldD4_encodeXyn : fieldD4 (encodeXyn d x y e) = e := by
  apply BitVec.eq_of_toNat_eq
  rw [fieldD4_toNat, encodeXyn_toNat]
  have := d.isLt; have := e.isLt; have := x.isLt; have := y.isLt; omega

@[simp] theorem fieldN_encodeXyn : fieldN (encodeXyn d x y e) = e.toFin := by
  have h := fieldD4_encodeXyn d x y e
  simp only [fieldN, h]

end Xyn

/-! ### What a match says of the fields -/

theorem and_extract (w m c : Word) (h : w &&& m = c) (s l : Nat) :
    w.extractLsb' s l &&& m.extractLsb' s l = c.extractLsb' s l := by
  rw [← h, BitVec.extractLsb'_and]

/-- Mask F000: the match fixes d1. -/
theorem fieldD1_of_match {w m c : Word} (h : w &&& m = c) (hm : m.extractLsb' 12 4 = 0xF#4) : fieldD1 w = fieldD1 c := by
  have e := and_extract w m c h 12 4
  rw [hm] at e
  have : w.extractLsb' 12 4 &&& 0xF#4 = w.extractLsb' 12 4 := BitVec.and_allOnes
  exact this.symm.trans e

/-- Mask F00F: the match fixes d4 too. -/
theorem fieldD4_of_match {w m c : Word} (h : w &&& m = c) (hm : m.extractLsb' 0 4 = 0xF#4) : fieldD4 w = fieldD4 c := by
  have e := and_extract w m c h 0 4
  rw [hm] at e
  have : w.extractLsb' 0 4 &&& 0xF#4 = w.extractLsb' 0 4 := BitVec.and_allOnes
  exact this.symm.trans e

/-- Mask F0FF: the match fixes the low byte too. -/
theorem fieldNn_of_match {w m c : Word} (h : w &&& m = c) (hm : m.extractLsb' 0 8 = 0xFF#8) : fieldNn w = fieldNn c := by
  have e := and_extract w m c h 0 8
  rw [hm] at e
  have : w.extractLsb' 0 8 &&& 0xFF#8 = w.extractLsb' 0 8 := BitVec.and_allOnes
  exact this.symm.trans e

/-- Mask FFFF: the match fixes the word. -/
theorem eq_of_match {w c : Word} (h : w &&& 0xFFFF#16 = c) : w = c := by
  have : w &&& 0xFFFF#16 = w := BitVec.and_allOnes
  exact this.symm.trans h

/-! ### The bytes of a word -/

@[simp] theorem joinBytes_of_word (w : Word) : joinBytes (w.extractLsb' 8 8) (w.extractLsb' 0 8) = w := by
  apply BitVec.eq_of_toNat_eq
  have e : (joinBytes (w.extractLsb' 8 8) (w.extractLsb' 0 8)).toNat =
      (w.extractLsb' 8 8).toNat * 2 ^ 8 + (w.extractLsb' 0 8).toNat := append_toNat _ _
  rw [e, extract_toNat, extract_toNat]
  have := w.isLt
  omega

end Sys2Proof
end

