-- ==== Sys2Proof/Laws/Exec.lean ====
section
/-! SUPPORT. Everything `exec`, `step` and a command can answer (40_tick_driver.md R50, R51; 60_exceptions.md R101). -/

namespace Sys2Proof.Machine

/-- Everything `finish` can do. -/
theorem finish_next {r : Except Fault State} {t : State} : finish r = .next t ↔ r = .ok t := by
  cases r <;> simp [finish, raise]

/-- Everything CALL can do. -/
theorem execCall_cases (nnn : Addr12) (s : State) :
    (s.sp.val = 16 ∧ execCall nnn s = .fault .stackOverflow) ∨
    (∃ h : s.sp.val < 16, execCall nnn s = .next
      { s with stack := s.stack.set s.sp.val s.pc h, sp := ⟨s.sp.val + 1, by omega⟩, pc := target nnn }) := by
  rcases s.push_cases s.pc with ⟨h, e⟩ | ⟨h, e⟩
  · exact .inl ⟨h, by simp [execCall, e, finish, raise, Except.map]⟩
  · exact .inr ⟨h, by simp [execCall, e, finish, Except.map, State.setPc]⟩

/-- Everything RET can do. -/
theorem execRet_cases (s : State) :
    (s.sp.val = 0 ∧ execRet s = .fault .stackUnderflow) ∨
    (∃ h : 0 < s.sp.val, execRet s = .next
      { s with sp := ⟨s.sp.val - 1, by have := s.sp.isLt; omega⟩,
               pc := s.stack[s.sp.val - 1]'(by have := s.sp.isLt; omega) }) := by
  rcases s.pop_cases with ⟨h, e⟩ | ⟨h, e⟩
  · exact .inl ⟨h, by simp [execRet, e, finish, raise, Except.map]⟩
  · exact .inr ⟨h, by simp [execRet, e, finish, Except.map, State.setPc]⟩

/-- Everything WAIT_KEY can do. -/
theorem execWaitKey_cases (x : RegIdx) (s : State) :
    (∃ k, s.waitActive = true ∧ s.waitKey = some k ∧ execWaitKey x s = .next (s.resolveWait x k)) ∨
    (s.waitActive = true ∧ s.waitKey = none ∧ execWaitKey x s = .next s.retreat) ∨
    (s.waitActive = false ∧ execWaitKey x s = .next (s.armLatch x).retreat) := by
  cases ha : s.waitActive with
  | false => exact .inr (.inr ⟨rfl, by simp [execWaitKey, State.recordedKey, State.keepWaiting, ha]⟩)
  | true =>
    cases hk : s.waitKey with
    | none => exact .inr (.inl ⟨rfl, rfl, by simp [execWaitKey, State.recordedKey, State.keepWaiting, ha, hk]⟩)
    | some k => exact .inl ⟨k, rfl, rfl, by simp [execWaitKey, State.recordedKey, ha, hk]⟩

/-- Everything `step` can do. -/
theorem step_cases (s : State) :
    (decodeWord s.fetch = none ∧ step s = .fault (.unsupportedOpcode s.fetch)) ∨
    (∃ i, decodeWord s.fetch = some i ∧ step s = exec i s.advance) := by
  cases h : decodeWord s.fetch with
  | none => exact .inl ⟨rfl, by simp [step, h, raise]⟩
  | some i => exact .inr ⟨i, rfl, by simp [step, h]⟩

/-- The state a `tick_cpu` leaves after an error is the state before it. -/
theorem afterTick_fst_of_err (s : State) (o : Host.Outcome State Fault Refusal) (e : Fault)
    (h : (s.afterTick o).2 = .err e) : (s.afterTick o).1 = s := by
  cases o <;> simp_all [State.afterTick]

/-- A run of one sequence after another. -/
theorem runCommands_append (a b : List Command) (s : State) :
    runCommands (a ++ b) s =
      ((runCommands b (runCommands a s).1).1, (runCommands a s).2 ++ (runCommands b (runCommands a s).1).2) := by
  induction a generalizing s with
  | nil => rfl
  | cons c a ih => simp only [List.cons_append, runCommands, ih]

end Sys2Proof.Machine
end

