-- ==== Sys2Proof/Laws/PerInstr.lean ====
section
/-! SUPPORT. Per-instruction lemmas, family `EncodesRow`: the word of every instruction is selected by the row of the
opcode map that bears the instruction's name (30_encoding.md R44). -/

namespace Sys2Proof

theorem encodeNnn_and (d : BitVec 4) (nnn : Addr12) : encodeNnn d nnn &&& 0xF000#16 = encodeNnn d 0 := by
  have e : (0xF000#16 : Word) = encodeNnn 0xF 0 := by decide
  rw [e]
  show (d ++ nnn) &&& (0xF#4 ++ 0#12) = d ++ 0#12
  rw [BitVec.and_append]
  congr 1
  · exact BitVec.and_allOnes
  · exact BitVec.and_zero

theorem encodeXnn_and (d : BitVec 4) (x : RegIdx) (nn : Byte) : encodeXnn d x nn &&& 0xF000#16 = encodeXnn d 0 0 := by
  have e : (0xF000#16 : Word) = encodeXnn 0xF 0 0 := by decide
  rw [e]
  show ((d ++ nibble x) ++ nn) &&& ((0xF#4 ++ 0#4) ++ 0#8) = (d ++ 0#4) ++ 0#8
  rw [BitVec.and_append, BitVec.and_append]
  congr 1
  · congr 1
    · exact BitVec.and_allOnes
    · exact BitVec.and_zero
  · exact BitVec.and_zero

theorem encodeX_and (d : BitVec 4) (x : RegIdx) (low : Byte) : encodeX d x low &&& 0xF0FF#16 = encodeX d 0 low := by
  have e : (0xF0FF#16 : Word) = encodeX 0xF 0 0xFF := by decide
  rw [e]
  show ((d ++ nibble x) ++ low) &&& ((0xF#4 ++ 0#4) ++ 0xFF#8) = (d ++ 0#4) ++ low
  rw [BitVec.and_append, BitVec.and_append]
  congr 1
  · congr 1
    · exact BitVec.and_allOnes
    · exact BitVec.and_zero
  · exact BitVec.and_allOnes

theorem encodeXyn_and (d : BitVec 4) (x y : RegIdx) (n : BitVec 4) :
    encodeXyn d x y n &&& 0xF00F#16 = encodeXyn d 0 0 n := by
  have e : (0xF00F#16 : Word) = encodeXyn 0xF 0 0 0xF := by decide
  rw [e]
  show (((d ++ nibble x) ++ nibble y) ++ n) &&& (((0xF#4 ++ 0#4) ++ 0#4) ++ 0xF#4) = ((d ++ 0#4) ++ 0#4) ++ n
  rw [BitVec.and_append, BitVec.and_append, BitVec.and_append]
  congr 1
  · congr 1
    · congr 1
      · exact BitVec.and_allOnes
      · exact BitVec.and_zero
    · exact BitVec.and_zero
  · exact BitVec.and_allOnes

theorem encodeXyn_and_high (d : BitVec 4) (x y : RegIdx) (n : BitVec 4) :
    encodeXyn d x y n &&& 0xF000#16 = encodeXyn d 0 0 0 := by
  have e : (0xF000#16 : Word) = encodeXyn 0xF 0 0 0 := by decide
  rw [e]
  show (((d ++ nibble x) ++ nibble y) ++ n) &&& (((0xF#4 ++ 0#4) ++ 0#4) ++ 0#4) = ((d ++ 0#4) ++ 0#4) ++ 0#4
  rw [BitVec.and_append, BitVec.and_append, BitVec.and_append]
  congr 1
  · congr 1
    · congr 1
      · exact BitVec.and_allOnes
      · exact BitVec.and_zero
    · exact BitVec.and_zero
  · exact BitVec.and_zero

namespace Laws.EncodesRow

/-- The instruction's word is selected by a row of R44 that bears its name. -/
def Statement (i : Instr) : Prop := ∃ r ∈ opcodeRows, r.mnemonic = i.mnemonic ∧ encode i &&& r.mask = r.mtch

theorem nop : Statement .nop :=
  ⟨⟨"NOP", 0x0000, 0xFFFF⟩, by decide, rfl, rfl⟩

theorem cls : Statement .cls :=
  ⟨⟨"CLS", 0x00E0, 0xFFFF⟩, by decide, rfl, rfl⟩

theorem ret : Statement .ret :=
  ⟨⟨"RET", 0x00EE, 0xFFFF⟩, by decide, rfl, rfl⟩

theorem jmp (nnn : Addr12) : Statement (.jmp nnn) :=
  ⟨⟨"JMP", 0x1000, 0xF000⟩, by decide, rfl, (encodeNnn_and ..).trans (by decide)⟩

theorem call (nnn : Addr12) : Statement (.call nnn) :=
  ⟨⟨"CALL", 0x2000, 0xF000⟩, by decide, rfl, (encodeNnn_and ..).trans (by decide)⟩

theorem skipEqNn (x : RegIdx) (nn : Byte) : Statement (.skipEqNn x nn) :=
  ⟨⟨"SKIP_EQ_NN", 0x3000, 0xF000⟩, by decide, rfl, (encodeXnn_and ..).trans (by decide)⟩

theorem skipNeqNn (x : RegIdx) (nn : Byte) : Statement (.skipNeqNn x nn) :=
  ⟨⟨"SKIP_NEQ_NN", 0x4000, 0xF000⟩, by decide, rfl, (encodeXnn_and ..).trans (by decide)⟩

theorem skipEqVy (x y : RegIdx) : Statement (.skipEqVy x y) :=
  ⟨⟨"SKIP_EQ_VY", 0x5000, 0xF00F⟩, by decide, rfl, (encodeXyn_and ..).trans (by decide)⟩

theorem setNn (x : RegIdx) (nn : Byte) : Statement (.setNn x nn) :=
  ⟨⟨"SET_NN", 0x6000, 0xF000⟩, by decide, rfl, (encodeXnn_and ..).trans (by decide)⟩

theorem addNn (x : RegIdx) (nn : Byte) : Statement (.addNn x nn) :=
  ⟨⟨"ADD_NN", 0x7000, 0xF000⟩, by decide, rfl, (encodeXnn_and ..).trans (by decide)⟩

theorem setVy (x y : RegIdx) : Statement (.setVy x y) :=
  ⟨⟨"SET_VY", 0x8000, 0xF00F⟩, by decide, rfl, (encodeXyn_and ..).trans (by decide)⟩

theorem or (x y : RegIdx) : Statement (.or x y) :=
  ⟨⟨"OR", 0x8001, 0xF00F⟩, by decide, rfl, (encodeXyn_and ..).trans (by decide)⟩

theorem and (x y : RegIdx) : Statement (.and x y) :=
  ⟨⟨"AND", 0x8002, 0xF00F⟩, by decide, rfl, (encodeXyn_and ..).trans (by decide)⟩

theorem xor (x y : RegIdx) : Statement (.xor x y) :=
  ⟨⟨"XOR", 0x8003, 0xF00F⟩, by decide, rfl, (encodeXyn_and ..).trans (by decide)⟩

theorem addVy (x y : RegIdx) : Statement (.addVy x y) :=
  ⟨⟨"ADD_VY", 0x8004, 0xF00F⟩, by decide, rfl, (encodeXyn_and ..).trans (by decide)⟩

theorem subVy (x y : RegIdx) : Statement (.subVy x y) :=
  ⟨⟨"SUB_VY", 0x8005, 0xF00F⟩, by decide, rfl, (encodeXyn_and ..).trans (by decide)⟩

theorem rshift (x y : RegIdx) : Statement (.rshift x y) :=
  ⟨⟨"RSHIFT", 0x8006, 0xF00F⟩, by decide, rfl, (encodeXyn_and ..).trans (by decide)⟩

theorem rsubVy (x y : RegIdx) : Statement (.rsubVy x y) :=
  ⟨⟨"RSUB_VY", 0x8007, 0xF00F⟩, by decide, rfl, (encodeXyn_and ..).trans (by decide)⟩

theorem lshift (x y : RegIdx) : Statement (.lshift x y) :=
  ⟨⟨"LSHIFT", 0x8008, 0xF00F⟩, by decide, rfl, (encodeXyn_and ..).trans (by decide)⟩

theorem skipNeqVy (x y : RegIdx) : Statement (.skipNeqVy x y) :=
  ⟨⟨"SKIP_NEQ_VY", 0x9000, 0xF00F⟩, by decide, rfl, (encodeXyn_and ..).trans (by decide)⟩

theorem setI (nnn : Addr12) : Statement (.setI nnn) :=
  ⟨⟨"SET_I", 0xA000, 0xF000⟩, by decide, rfl, (encodeNnn_and ..).trans (by decide)⟩

theorem jmpV0 (nnn : Addr12) : Statement (.jmpV0 nnn) :=
  ⟨⟨"JMP_V0", 0xB000, 0xF000⟩, by decide, rfl, (encodeNnn_and ..).trans (by decide)⟩

theorem rand (x : RegIdx) (nn : Byte) : Statement (.rand x nn) :=
  ⟨⟨"RAND", 0xC000, 0xF000⟩, by decide, rfl, (encodeXnn_and ..).trans (by decide)⟩

theorem draw (x y : RegIdx) (n : Fin 16) : Statement (.draw x y n) :=
  ⟨⟨"DRAW", 0xD000, 0xF000⟩, by decide, rfl, (encodeXyn_and_high ..).trans (by decide)⟩

theorem skipKey (x : RegIdx) : Statement (.skipKey x) :=
  ⟨⟨"SKIP_KEY", 0xE09E, 0xF0FF⟩, by decide, rfl, (encodeX_and ..).trans (by decide)⟩

theorem skipNkey (x : RegIdx) : Statement (.skipNkey x) :=
  ⟨⟨"SKIP_NKEY", 0xE0A1, 0xF0FF⟩, by decide, rfl, (encodeX_and ..).trans (by decide)⟩

theorem getDt (x : RegIdx) : Statement (.getDt x) :=
  ⟨⟨"GET_DT", 0xF007, 0xF0FF⟩, by decide, rfl, (encodeX_and ..).trans (by decide)⟩

theorem waitKey (x : RegIdx) : Statement (.waitKey x) :=
  ⟨⟨"WAIT_KEY", 0xF00A, 0xF0FF⟩, by decide, rfl, (encodeX_and ..).trans (by decide)⟩

theorem setDt (x : RegIdx) : Statement (.setDt x) :=
  ⟨⟨"SET_DT", 0xF015, 0xF0FF⟩, by decide, rfl, (encodeX_and ..).trans (by decide)⟩

theorem setSt (x : RegIdx) : Statement (.setSt x) :=
  ⟨⟨"SET_ST", 0xF018, 0xF0FF⟩, by decide, rfl, (encodeX_and ..).trans (by decide)⟩

theorem addI (x : RegIdx) : Statement (.addI x) :=
  ⟨⟨"ADD_I", 0xF01E, 0xF0FF⟩, by decide, rfl, (encodeX_and ..).trans (by decide)⟩

theorem setIFont (x : RegIdx) : Statement (.setIFont x) :=
  ⟨⟨"SET_I_FONT", 0xF029, 0xF0FF⟩, by decide, rfl, (encodeX_and ..).trans (by decide)⟩

theorem bcd (x : RegIdx) : Statement (.bcd x) :=
  ⟨⟨"BCD", 0xF033, 0xF0FF⟩, by decide, rfl, (encodeX_and ..).trans (by decide)⟩

theorem store (x : RegIdx) : Statement (.store x) :=
  ⟨⟨"STORE", 0xF055, 0xF0FF⟩, by decide, rfl, (encodeX_and ..).trans (by decide)⟩

theorem load (x : RegIdx) : Statement (.load x) :=
  ⟨⟨"LOAD", 0xF065, 0xF0FF⟩, by decide, rfl, (encodeX_and ..).trans (by decide)⟩

end Laws.EncodesRow

end Sys2Proof
end

