-- ==== Sys2Proof/Tests/Slice0.lean ====
section
/-! SUPPORT. The model's own tests: expected results are those of spec/95_test_vectors.md (the id stands in the name or the
comment) or of the rule named; then one witness per statement that has hypotheses. -/

namespace Sys2Proof.Tests

open Sys2Proof.Machine

/-- The outcome is a next state that passes the check. -/
def nextIs (o : Host.Outcome State Fault Refusal) (p : State → Bool) : Bool :=
  match o with
  | .next t => p t
  | .fault _ => false
  | .refused _ => false

/-- The outcome is this fault. -/
def faultIs (o : Host.Outcome State Fault Refusal) (e : Fault) : Bool :=
  match o with
  | .next _ => false
  | .fault f => f == e
  | .refused _ => false

/-- One step on the word w, placed at pc. -/
def tick (s : State) (w : Nat) : Host.Outcome State Fault Refusal := step (s.withFetchWord 16 w)

/-- The reset state with some registers set. -/
def regs (rs : List (RegIdx × Byte)) : State := rs.foldl (fun s r => s.setV r.1 r.2) State.reset

/-- The same block with SHIFT_SRC = VY. -/
def underVy (s : State) : State := { s with params := { s.params with shiftSrc := .vy } }

/-- The same block with LOAD_POLICY = REJECT. -/
def underReject (s : State) : State := { s with params := { s.params with loadPolicy := .reject } }

/-- The reset state with n entries on the stack, every entry w. -/
def stacked (n : Fin 17) (w : Word) : State := { State.reset with sp := n, stack := Vector.replicate 16 w }

/-- The reset state with bytes from an address up. -/
def bytesAt (s : State) (a : Nat) (bs : List Byte) : State := s.setMem (s.mem.writeBytes a bs)

/-! ### Well-formedness: ill-formed inputs are refused -/

/-- One word of each class of R45. -/
theorem test_unsupported_words_are_ill_formed :
    supportedWord 0x0123#16 = false ∧ supportedWord 0x5121#16 = false ∧ supportedWord 0x8AB9#16 = false ∧
    supportedWord 0x812E#16 = false ∧ supportedWord 0x9121#16 = false ∧ supportedWord 0xE1A2#16 = false ∧
    supportedWord 0xF130#16 = false := by decide

/-- A ROM of n zero bytes. -/
def zeroRom (n : Nat) : List Byte := List.replicate n 0

theorem zeroRom_length (n : Nat) : (zeroRom n).length = n := List.length_replicate

theorem test_rom_of_3585_bytes_does_not_fit : romFits (zeroRom 3584) = true ∧ romFits (zeroRom 3585) = false := by
  simp only [romFits, zeroRom_length]; decide

/-! ### Decoding: words written out from the patterns of R42, at least one per constructor -/

theorem test_decode_control_flow :
    decodeWord 0x0000#16 = some .nop ∧ decodeWord 0x1ABC#16 = some (.jmp 0xABC) ∧
    decodeWord 0x2300#16 = some (.call 0x300) ∧ decodeWord 0x00EE#16 = some .ret ∧
    decodeWord 0xBFFF#16 = some (.jmpV0 0xFFF) ∧ decodeWord 0x3A05#16 = some (.skipEqNn 0xA 0x05) ∧
    decodeWord 0x4201#16 = some (.skipNeqNn 2 0x01) ∧ decodeWord 0x5120#16 = some (.skipEqVy 1 2) ∧
    decodeWord 0x9120#16 = some (.skipNeqVy 1 2) := by decide

theorem test_decode_alu :
    decodeWord 0x6312#16 = some (.setNn 3 0x12) ∧ decodeWord 0x70FF#16 = some (.addNn 0 0xFF) ∧
    decodeWord 0x8120#16 = some (.setVy 1 2) ∧ decodeWord 0x8121#16 = some (.or 1 2) ∧
    decodeWord 0x8122#16 = some (.and 1 2) ∧ decodeWord 0x8123#16 = some (.xor 1 2) ∧
    decodeWord 0x8F14#16 = some (.addVy 0xF 1) ∧ decodeWord 0x81F5#16 = some (.subVy 1 0xF) ∧
    decodeWord 0x8126#16 = some (.rshift 1 2) ∧ decodeWord 0x8127#16 = some (.rsubVy 1 2) ∧
    decodeWord 0x8128#16 = some (.lshift 1 2) ∧ decodeWord 0xC30F#16 = some (.rand 3 0x0F) := by decide

theorem test_decode_memory_display :
    decodeWord 0xA300#16 = some (.setI 0x300) ∧ decodeWord 0xF01E#16 = some (.addI 0) ∧
    decodeWord 0xF329#16 = some (.setIFont 3) ∧ decodeWord 0xF733#16 = some (.bcd 7) ∧
    decodeWord 0xF255#16 = some (.store 2) ∧ decodeWord 0xF265#16 = some (.load 2) ∧
    decodeWord 0x00E0#16 = some .cls ∧ decodeWord 0xD015#16 = some (.draw 0 1 5) := by decide

theorem test_decode_keypad_timers :
    decodeWord 0xE19E#16 = some (.skipKey 1) ∧ decodeWord 0xE1A1#16 = some (.skipNkey 1) ∧
    decodeWord 0xF607#16 = some (.getDt 6) ∧ decodeWord 0xF50A#16 = some (.waitKey 5) ∧
    decodeWord 0xFA15#16 = some (.setDt 0xA) ∧ decodeWord 0xF218#16 = some (.setSt 2) := by decide

/-- E1: the words of 95_test_vectors.md that are no instruction. -/
theorem test_E1_words_do_not_decode :
    ([0x0123, 0x00E1, 0x00FF, 0x5121, 0x8AB9, 0x812E, 0x9121, 0xE1A2, 0xE19F, 0xF100, 0xF130, 0xF175] : List Word).all
      (fun w => (decodeWord w).isNone) = true := by decide

theorem test_table_word_and_bytes :
    decodeTableWord 16 0xD015 = some (.draw 0 1 5) ∧ encodeBytes (.call 0x300) = [0x23, 0x00] ∧
    decodeBytes [0x00] = .error .truncated ∧ decodeBytes [0x51, 0x21, 0x00] = .error (.unsupportedOpcode 0x5121) := by
  decide

/-- R47's examples of the assembler syntax. -/
theorem test_assembly :
    Instr.assembly (.call 0x300) = "CALL 0x300".toList ∧ Instr.assembly (.setNn 3 0x12) = "SET_NN V3, 0x12".toList ∧
    Instr.assembly (.draw 0 1 5) = "DRAW V0, V1, 5".toList ∧ Instr.assembly .cls = "CLS".toList := by decide

/-! ### Control flow -/

theorem test_CF1_nop : nextIs (tick State.reset 0x0000) (fun t => t == State.reset.advance && t.pc == 0x202) = true := by decide
theorem test_CF2_jmp : nextIs (tick State.reset 0x1ABC) (fun t => t.pc == 0x0ABC) = true := by decide
theorem test_CF3_jmp_to_itself :
    nextIs (tick State.reset 0x1200) (fun t => t == State.reset.withFetchWord 16 0x1200) = true := by decide
theorem test_CF4_call :
    nextIs (tick State.reset 0x2300) (fun t => t.stack[0] == 0x0202 && t.sp == 1 && t.pc == 0x300) = true := by decide
/-- CF6: a CALL at 0xFFFE pushes 0x0000. -/
theorem test_CF6_call_at_the_top :
    nextIs (tick (State.reset.setPc 0xFFFE) 0x2300) (fun t => t.stack[0] == 0 && t.sp == 1 && t.pc == 0x300) = true := by
  decide
theorem test_CF5_call_overflow : faultIs (tick (stacked 16 0x202) 0x2300) .stackOverflow = true := by decide
theorem test_CF7_ret :
    nextIs (tick ((stacked 1 0x202).setPc 0x300) 0x00EE) (fun t => t.pc == 0x202 && t.sp == 0 && t.stack[0] == 0x202) = true := by
  decide
theorem test_CF8_ret_underflow : faultIs (tick State.reset 0x00EE) .stackUnderflow = true := by decide
theorem test_CF9_jmp_v0 : nextIs (tick (regs [(0, 0x10)]) 0xB300) (fun t => t.pc == 0x310) = true := by decide
theorem test_CF10_jmp_v0_keeps_bit_12 : nextIs (tick (regs [(0, 0xFF)]) 0xBFFF) (fun t => t.pc == 0x10FE) = true := by decide
theorem test_CF11_skip_eq_nn :
    nextIs (tick ((regs [(0, 5)]).setPc 0x208) 0x3005) (fun t => t.pc == 0x20C) = true := by decide
/-- CF17: a taken skip at 0xFFFC wraps to 0. -/
theorem test_CF17_skip_wraps : nextIs (tick (State.reset.setPc 0xFFFC) 0x3000) (fun t => t.pc == 0) = true := by decide
theorem test_CF13_skip_neq_nn :
    (nextIs (tick (regs [(2, 1)]) 0x4201) (fun t => t.pc == 0x202) && nextIs (tick (regs [(2, 0)]) 0x4201) (fun t => t.pc == 0x204)) = true := by
  decide
theorem test_CF14_skip_eq_vy_same : nextIs (tick (regs [(1, 7)]) 0x5110) (fun t => t.pc == 0x204) = true := by decide
theorem test_CF16_skip_neq_vy :
    (nextIs (tick (regs [(1, 1), (2, 2)]) 0x9120) (fun t => t.pc == 0x204) && nextIs (tick (regs [(1, 2), (2, 2)]) 0x9120) (fun t => t.pc == 0x202)) = true := by
  decide
theorem test_CF19_unsupported : faultIs (tick State.reset 0x5121) (.unsupportedOpcode 0x5121) = true := by decide

/-! ### Register and arithmetic -/

theorem test_A1_set_nn : nextIs (tick State.reset 0x6312) (fun t => t.getV 3 == 0x12) = true := by decide
theorem test_A2_add_nn : nextIs (tick (regs [(0, 2), (15, 0x77)]) 0x70FF) (fun t => t.getV 0 == 1 && t.getV 15 == 0x77) = true := by decide
theorem test_A3_add_nn_to_vf : nextIs (tick (regs [(15, 0xFF)]) 0x7F01) (fun t => t.getV 15 == 0) = true := by decide
theorem test_A4_set_vy : nextIs (tick (regs [(2, 0x7A)]) 0x8120) (fun t => t.getV 1 == 0x7A) = true := by decide
theorem test_A5_or :
    nextIs (tick (regs [(1, 0x0F), (2, 0xF0), (15, 0x55)]) 0x8121) (fun t => t.getV 1 == 0xFF && t.getV 15 == 0x55) = true := by decide
theorem test_A6_and : nextIs (tick (regs [(1, 0x3C), (2, 0x0F)]) 0x8122) (fun t => t.getV 1 == 0x0C) = true := by decide
theorem test_A7_xor : nextIs (tick (regs [(1, 0xFF), (2, 0x0F)]) 0x8123) (fun t => t.getV 1 == 0xF0) = true := by decide
/-- W1 and A12: the source's example, and the flag last at x = F. -/
theorem test_W1_add_vy :
    nextIs (tick (regs [(1, 250), (2, 10)]) 0x8124) (fun t => t.getV 1 == 4 && t.getV 15 == 1) = true := by decide
theorem test_A12_add_vy_to_vf : nextIs (tick (regs [(15, 0xFF), (1, 2)]) 0x8F14) (fun t => t.getV 15 == 1) = true := by decide
theorem test_W2_sub_vy :
    (nextIs (tick (regs [(1, 5), (2, 3)]) 0x8125) (fun t => t.getV 1 == 2 && t.getV 15 == 1) &&
     nextIs (tick (regs [(1, 3), (2, 5)]) 0x8125) (fun t => t.getV 1 == 254 && t.getV 15 == 0)) = true := by decide
theorem test_A14_sub_vy_equal :
    nextIs (tick (regs [(1, 7), (2, 7)]) 0x8125) (fun t => t.getV 1 == 0 && t.getV 15 == 1) = true := by decide
theorem test_A18_rsub_vy :
    (nextIs (tick (regs [(1, 3), (2, 5)]) 0x8127) (fun t => t.getV 1 == 2 && t.getV 15 == 1) &&
     nextIs (tick (regs [(1, 5), (2, 3)]) 0x8127) (fun t => t.getV 1 == 0xFE && t.getV 15 == 0)) = true := by decide
theorem test_A20_rshift :
    (nextIs (tick (regs [(1, 5), (2, 0x80)]) 0x8126) (fun t => t.getV 1 == 2 && t.getV 15 == 1) &&
     nextIs (tick (underVy (regs [(1, 5), (2, 0x80)])) 0x8126) (fun t => t.getV 1 == 0x40 && t.getV 15 == 0 && t.getV 2 == 0x80)) = true := by
  decide
theorem test_A22_rshift_vf :
    (nextIs (tick (regs [(15, 3), (1, 0x80)]) 0x8F16) (fun t => t.getV 15 == 1) &&
     nextIs (tick (underVy (regs [(15, 3), (1, 0x80)])) 0x8F16) (fun t => t.getV 15 == 0)) = true := by decide
theorem test_A23_lshift :
    (nextIs (tick (regs [(1, 5), (2, 0x80)]) 0x8128) (fun t => t.getV 1 == 0x0A && t.getV 15 == 0) &&
     nextIs (tick (underVy (regs [(1, 5), (2, 0x80)])) 0x8128) (fun t => t.getV 1 == 0 && t.getV 15 == 1)) = true := by decide
/-- A26: RAND's effect for the draw 0xAB. -/
theorem test_A26_rand_with_draw : (State.reset.maskDraw 3 0x0F 0xAB).getV 3 = 0x0B := by decide
/-- A27: with nn = 0 every draw gives 0. -/
theorem test_A27_rand_masked_out (s : State) : (s.maskDraw 3 0x00 s.nextDraw).getV 3 = 0 := by simp [State.maskDraw]

/-! ### Index register and memory -/

theorem test_M1_set_i : nextIs (tick State.reset 0xA300) (fun t => t.i == 0x300) = true := by decide
theorem test_M3_add_i : nextIs (tick ((regs [(0, 1)]).setI 0x0FFF) 0xF01E) (fun t => t.i == 0x1000 && t.getV 15 == 0) = true := by decide
theorem test_M4_add_i_wraps : nextIs (tick ((regs [(0, 1)]).setI 0xFFFF) 0xF01E) (fun t => t.i == 0) = true := by decide
theorem test_M5_set_i_font : nextIs (tick (regs [(3, 0x1A)]) 0xF329) (fun t => t.i == 0x032) = true := by decide
theorem test_M6_bcd :
    nextIs (tick ((regs [(0, 0xFE)]).setI 0x300) 0xF033)
      (fun t => t.byteAt 0x300 == 2 && t.byteAt 0x301 == 5 && t.byteAt 0x302 == 4 && t.i == 0x300) = true := by decide
/-- M8: the digits wrap past 0xFFF and overwrite the font's first byte. -/
theorem test_M8_bcd_wraps :
    nextIs (tick ((regs [(0, 123)]).setI 0xFFE) 0xF033)
      (fun t => t.byteAt 0xFFE == 1 && t.byteAt 0xFFF == 2 && t.byteAt 0 == 3 && t.mem.wf) = true := by decide
theorem test_M10_store_v0_only :
    nextIs (tick (bytesAt ((regs [(0, 0xAA), (1, 0x77)]).setI 0x310) 0x311 [0x99]) 0xF055)
      (fun t => t.byteAt 0x310 == 0xAA && t.byteAt 0x311 == 0x99) = true := by decide
theorem test_M11_store_wraps :
    nextIs (tick ((regs [(0, 0xAA), (1, 0xBB)]).setI 0xFFF) 0xF155)
      (fun t => t.byteAt 0xFFF == 0xAA && t.byteAt 0 == 0xBB) = true := by decide
theorem test_M12_load :
    nextIs (tick (bytesAt (State.reset.setI 0x300) 0x300 [2, 5, 4, 9]) 0xF265)
      (fun t => t.getV 0 == 2 && t.getV 1 == 5 && t.getV 2 == 4 && t.getV 3 == 0 && t.i == 0x300) = true := by decide
/-- M14: I = 0x1000 reads byte 0x000, the first byte of the font. -/
theorem test_M14_load_wraps : nextIs (tick (State.reset.setI 0x1000) 0xF065) (fun t => t.getV 0 == 0xF0) = true := by decide
/-- E7: a fetch at 0x0FFF joins bytes 0xFFF and 0x000. -/
theorem test_E7_fetch_wraps :
    nextIs (step ((bytesAt State.reset 0xFFF [0x60]).setPc 0xFFF)) (fun t => t.getV 0 == 0xF0 && t.pc == 0x1001) = true := by decide

/-! ### Display -/

theorem test_D1_cls :
    nextIs (tick (State.reset.setFb (Framebuffer.flip Framebuffer.blank 3 4)) 0x00E0) (fun t => !t.pixel 3 4 && t.getV 15 == 0) = true := by decide
/-- D4: the sprite crosses the right and the bottom edge, per pixel. -/
theorem test_D4_draw_wraps :
    nextIs (tick (bytesAt ((regs [(0, 0x3E), (1, 0x1E)]).setI 0x300) 0x300 [0xFF, 0x81]) 0xD012)
      (fun t => t.getV 15 == 0 && t.pixel 62 30 && t.pixel 63 30 && t.pixel 0 30 && t.pixel 5 30 && !t.pixel 6 30 &&
        t.pixel 62 31 && t.pixel 5 31 && !t.pixel 63 31) = true := by decide
/-- D7: one lit pixel goes out and one comes on. -/
theorem test_D7_draw_collides :
    nextIs (tick (bytesAt (State.reset.setI 0x300) 0x300 [0xC0] |>.setFb (Framebuffer.flip Framebuffer.blank 0 0)) 0xD001)
      (fun t => !t.pixel 0 0 && t.pixel 1 0 && t.getV 15 == 1) = true := by decide

/-! ### Keypad and timers -/

theorem test_K2_skip_key_low_nibble :
    nextIs (tick ((regs [(1, 0x17)]).setKey 7 true) 0xE19E) (fun t => t.pc == 0x204) = true := by decide
theorem test_K1_skip_key_released : nextIs (tick (regs [(1, 7)]) 0xE19E) (fun t => t.pc == 0x202) = true := by decide
theorem test_K3_skip_nkey : nextIs (tick (regs [(1, 3)]) 0xE1A1) (fun t => t.pc == 0x204) = true := by decide
theorem test_K4_get_dt : nextIs (tick (State.reset.setDt 1) 0xF607) (fun t => t.getV 6 == 1) = true := by decide
theorem test_K5_set_dt : nextIs (tick (regs [(10, 3)]) 0xFA15) (fun t => t.dt == 3 && t.st == 0) = true := by decide
theorem test_K6_set_st : nextIs (tick (regs [(2, 0x3C)]) 0xF218) (fun t => t.st == 0x3C && t.soundActive) = true := by decide
/-- W6, first tick: the latch is armed and pc stays. -/
theorem test_W6_wait_key_arms :
    nextIs (tick State.reset 0xF00A) (fun t => t.pc == 0x200 && t.waitActive && t.waitReg == 0 && t.waitKey == none) = true := by decide
/-- K10, last tick: VF receives the key's number. -/
theorem test_K10_wait_key_resolves :
    nextIs (tick ((State.reset.armLatch 15).recordKey 12) 0xFF0A)
      (fun t => t.getV 15 == 0x0C && t.pc == 0x202 && !t.waitActive && t.waitKey == none) = true := by decide

/-! ### Host commands -/

theorem test_K13_tick_frame :
    (((State.reset.setDt 1).setSt 5).tickFrame.dt = 0) ∧ (((State.reset.setDt 1).setSt 5).tickFrame.st = 4) ∧
    State.reset.tickFrame = State.reset := by decide
/-- K8: the first transition is kept. -/
theorem test_K8_first_press_wins :
    (((State.reset.armLatch 0).keypress 2 true).keypress 9 true).waitKey = some 2 := by decide
theorem test_K11_keypress_out_of_range : State.reset.keypress 16 true = State.reset ∧ State.reset.keypress 255 true = State.reset := by decide
/-- E5: a load clears the latch and keeps pc. -/
theorem test_E5_load :
    (command (.load [0x00, 0xE0]) (State.reset.armLatch 0)).2 = .ok ∧
    (command (.load [0x00, 0xE0]) (State.reset.armLatch 0)).1.waitActive = false ∧
    (command (.load [0x00, 0xE0]) (State.reset.armLatch 0)).1.fetch = 0x00E0 := by decide
/-- R117 with R7: `reset` with the spec's settings is `State.reset`. -/
theorem test_reset_command_after_a_change : ((State.reset.setI 5).setByte 0x300 1).resetCommand = State.reset := by decide
theorem test_core_is_the_machine : Sys2Proof.core.reset = State.reset := rfl

/-! ### Witnesses: states and operands that meet the hypotheses of each statement -/

theorem witness_EncodeOfDecodeIsTheWord : decodeWord 0x6312#16 = some (.setNn 3 0x12) := by decide

theorem witness_DecoderAgreesWithTheOpcodeMap :
    (⟨"RET", 0x00EE, 0xFFFF⟩ ∈ opcodeRows ∧ OpcodeRow.selects ⟨"RET", 0x00EE, 0xFFFF⟩ 0x00EE#16 = true) ∧
    supportedWord 0x00EF#16 = false := by decide

theorem witness_StepRunsTheDecodedInstruction : decodeWord State.reset.fetch = some .nop := by decide

theorem witness_PlacedWordIsTheOneThatRuns :
    State.reset.mem.wf = true ∧ decodeTableWord 16 0x6312 = some (.setNn 3 0x12) ∧ eff 0x202 ≠ eff State.reset.pc.toNat ∧
    eff 0x202 ≠ eff (State.reset.pc.toNat + 1) := by decide

/-- One boundary word in each class of R45. -/
theorem witness_UnsupportedWordRaisesItsError :
    UnsupportedClass (State.reset.withFetchWord 16 0x0FFF).fetch ∧ UnsupportedClass (State.reset.withFetchWord 16 0x5001).fetch ∧
    UnsupportedClass (State.reset.withFetchWord 16 0x8009).fetch ∧ UnsupportedClass (State.reset.withFetchWord 16 0x9FFF).fetch ∧
    UnsupportedClass (State.reset.withFetchWord 16 0xE0A2).fetch ∧ UnsupportedClass (State.reset.withFetchWord 16 0xF000).fetch := by
  refine ⟨?_, ?_, ?_, ?_, ?_, ?_⟩ <;> (unfold UnsupportedClass; decide)

theorem witness_SupportedWordsExecute :
    supportedWord State.reset.fetch = true ∧ (∀ nnn, decodeWord State.reset.fetch = some (.call nnn) → State.reset.sp.val ≠ 16) ∧
    (decodeWord State.reset.fetch = some .ret → State.reset.sp.val ≠ 0) := by
  have h : decodeWord State.reset.fetch = some .nop := by decide
  refine ⟨by decide, ?_, ?_⟩ <;> simp [h]

/-- A full stack at a CALL. -/
def fullAtCall : State := (stacked 16 0x202).withFetchWord 16 0x2300

theorem witness_CallOnFullStackRaisesOverflow : fullAtCall.sp.val = 16 ∧ decodeWord fullAtCall.fetch = some (.call 0x300) := by decide

/-- An empty stack at a RET. -/
def emptyAtRet : State := State.reset.withFetchWord 16 0x00EE

theorem witness_RetOnEmptyStackRaisesUnderflow : emptyAtRet.sp.val = 0 ∧ decodeWord emptyAtRet.fetch = some .ret := by decide

theorem witness_ErrorsChangeNothingAndRepeat :
    (command .tickCpu emptyAtRet).2 = .err .stackUnderflow ∧
    (command (.load (zeroRom 3585)) (underReject State.reset)).2 = .err .romTooLarge := by
  refine ⟨by decide, ?_⟩
  have h : (underReject State.reset).rejectsRom (zeroRom 3585) = true := by
    rw [State.rejectsRom, test_rom_of_3585_bytes_does_not_fit.2]; rfl
  rw [command, State.loadRom, h]; rfl

theorem witness_NopOnlyAdvances : decodeWord State.reset.fetch = some .nop := by decide

/-- At a jump to itself. -/
def atSelfJump : State := State.reset.withFetchWord 16 0x1200

theorem witness_JmpSetsPc :
    decodeWord atSelfJump.fetch = some (.jmp 0x200) ∧ (0x200#12).toNat = atSelfJump.pc.toNat ∧ 0x1FFF#16 &&& 0xF000#16 = 0x1000#16 := by
  decide

/-- At a call to itself, the stack empty. -/
def atSelfCall : State := State.reset.withFetchWord 16 0x2200

theorem witness_CallPushesTheReturnAddress :
    (stacked 0 0).sp.val < 16 ∧ (stacked 15 0).sp.val < 16 ∧ (stacked 16 0).sp.val = 16 ∧
    decodeWord atSelfCall.fetch = some (.call 0x200) ∧ (0x200#12).toNat = atSelfCall.pc.toNat ∧ atSelfCall.sp.val = 0 := by decide

theorem witness_RetPopsTheReturnAddress : 0 < (stacked 1 0x202).sp.val ∧ 0 < (stacked 16 0x202).sp.val := by decide

/-- The state after a CALL from the reset state. -/
def afterCall : State :=
  { State.reset with stack := State.reset.stack.set 0 0x200#16, sp := 1, pc := target 0x300 }

theorem witness_RetUndoesCall :
    exec (.call 0x300) State.reset = .next afterCall ∧ SamePart afterCall (afterCall.setI 0x300) .stack := ⟨rfl, rfl, rfl⟩

/-- Both sides of each comparison occur, at one state and at x = y. -/
theorem witness_RegisterSkipsAddTwoWhenTheyHold :
    State.reset.getV 0 = 0 ∧ State.reset.getV 0 ≠ 1 ∧ (regs [(1, 1)]).getV 1 ≠ (regs [(1, 1)]).getV 2 ∧
    (regs [(1, 1)]).getV 1 = (regs [(1, 1)]).getV 1 := by decide

/-- Every row of the opcode map selects some word, so no `Selects` has an empty hypothesis. -/
theorem witness_Selects : opcodeRows.all (fun r => r.selects r.mtch) = true := by decide

theorem witness_OnlyCallAndRetRaise :
    faultIs (exec (.call 0x300) (stacked 16 0)) .stackOverflow = true ∧ faultIs (exec .ret State.reset) .stackUnderflow = true := by
  decide

theorem witness_RandMasksTheDraw : (0x00#8 : Byte) = 0 := rfl
theorem witness_ResetCommandSetsEveryField : 79 < 80 ∧ (80 ≤ 4095 ∧ 4095 < 4096) := by decide
theorem witness_GetDtAndSetStCopy : (regs [(2, 0x3C)]).getV 2 ≠ 0 := by decide

theorem witness_AddVyWritesSumAndCarry : (1 : RegIdx) ≠ VF := by decide
theorem witness_SubtractionsWriteDifferenceAndNoBorrow : (14 : RegIdx) ≠ VF := by decide
theorem witness_ShiftsReadVxUnderVx : State.reset.params.shiftSrc = .vx ∧ (0 : RegIdx) ≠ VF := by decide
theorem witness_ShiftsReadVyUnderVy : (underVy State.reset).params.shiftSrc = .vy ∧ (0 : RegIdx) ≠ VF := by decide

theorem witness_BcdStoresThreeDigits : (State.reset.setI 0xFFE).mem.wf = true ∧ OutsideData (State.reset.setI 0xFFE) 3 1 := by
  refine ⟨by decide, ?_⟩
  intro k hk; match k, hk with
  | 0, _ => decide
  | 1, _ => decide
  | 2, _ => decide

theorem witness_StoreWritesRegistersToMemory : State.reset.mem.wf = true ∧ (15 : RegIdx) ≤ 15 := by decide
theorem witness_LoadReadsRegistersFromMemory : (0 : RegIdx) ≤ 0 ∧ ¬ (1 : RegIdx) ≤ 0 := by decide

theorem witness_LoadAfterStoreRestores :
    State.reset.mem.wf = true ∧ exec (.store 3) State.reset = .next (State.reset.storeRegs 4) ∧
    SamePart (State.reset.storeRegs 4) ((State.reset.storeRegs 4).setV 0 9) .mem ∧
    SamePart (State.reset.storeRegs 4) ((State.reset.storeRegs 4).setV 0 9) .i := ⟨rfl, rfl, fun _ => rfl, rfl⟩

/-- The bytes STORE writes at 0x200 are the ones the next fetch reads. -/
theorem witness_FetchSeesStoredBytes :
    (0 : RegIdx).val + 1 ≤ (1 : RegIdx).val ∧ (State.reset.setI 0x200).mem.wf = true ∧
    exec (.store 1) (State.reset.setI 0x200) = .next ((State.reset.setI 0x200).storeRegs 2) ∧
    eff ((State.reset.setI 0x200).storeRegs 2).pc.toNat = eff ((State.reset.setI 0x200).dataAddr 0) :=
  ⟨by decide, rfl, rfl, rfl⟩

/-- A sprite bit that lands on a lit pixel, one that lands on a dark one, and a pixel no bit lands on. -/
theorem witness_DrawXorsTheSprite :
    SpriteCovers (State.reset.setFb (Framebuffer.flip Framebuffer.blank 0 0)) 0 0 5 0 0 ∧
    (State.reset.setFb (Framebuffer.flip Framebuffer.blank 0 0)).pixel 0 0 = true ∧
    SpriteCovers State.reset 0 0 5 0 0 ∧ State.reset.pixel 0 0 = false ∧
    ¬ SpriteCovers State.reset 0 0 0 0 0 :=
  ⟨⟨0, 0, by decide⟩, by decide, ⟨0, 0, by decide⟩, by decide, fun ⟨_, _, h, _⟩ => absurd h (by omega)⟩

theorem witness_DrawingTwiceRestoresTheScreen :
    (0 : RegIdx) ≠ VF ∧ (1 : RegIdx) ≠ VF ∧ exec (.draw 0 1 0) State.reset = .next (State.reset.setV VF 0) := ⟨by decide, by decide, rfl⟩

theorem witness_KeySkipsReadTheKeypad :
    (7 : KeyIdx).val = ((regs [(1, 0x17)]).getV 1).toNat % 16 ∧ ((regs [(1, 0x17)]).setKey 7 true).getKey 7 = true ∧
    (regs [(1, 0x17)]).getKey 7 = false := by decide

theorem witness_WaitKeyArmsWaitsAndResolves :
    (((State.reset.armLatch 5).recordKey 7).waitActive = true ∧ ((State.reset.armLatch 5).recordKey 7).waitKey = some 7) ∧
    ((State.reset.armLatch 5).waitActive = true ∧ (State.reset.armLatch 5).waitKey = none) ∧
    State.reset.waitActive = false := by decide

theorem witness_KeyPressEndsTheWait :
    decodeWord (State.reset.withFetchWord 16 0xF00A).fetch = some (.waitKey 0) ∧
    (State.reset.withFetchWord 16 0xF00A).waitActive = false ∧ (State.reset.withFetchWord 16 0xF00A).getKey 7 = false := by decide

/-- A press that is recorded, one that is not (the latch not armed), and the first index out of range. -/
theorem witness_KeypressSetsTheKeyAndRecordsThePress :
    ((State.reset.armLatch 0).getKey 15 = false ∧ (State.reset.armLatch 0).waitActive = true ∧ (State.reset.armLatch 0).waitKey = none) ∧
    State.reset.waitActive ≠ true ∧ 16 ≤ (16#8).toNat := by decide

theorem witness_LoadCopiesTheRom :
    State.reset.mem.wf = true ∧ State.reset.params.loadPolicy = .truncate ∧
    ((underReject State.reset).params.loadPolicy = .reject ∧ 3584 < (zeroRom 3585).length) := by
  rw [zeroRom_length]; exact ⟨rfl, rfl, rfl, by decide⟩

theorem witness_SoundActiveFollowsTheSoundTimer :
    (State.reset.setSt 1).st.toNat = 1 ∧ 2 ≤ (State.reset.setSt 2).st.toNat ∧
    ∀ x, decodeWord State.reset.fetch ≠ some (.setSt x) := by decide

theorem witness_InstructionsWriteOnlyWhatTheSpecLists :
    exec (.setNn 1 5) State.reset = .next (State.reset.setV 1 5) ∧
    exec (.waitKey 0) State.reset = .next (State.reset.armLatch 0).retreat ∧ State.reset.waitActive = false := ⟨rfl, rfl, rfl⟩

/-- A step that changes DT, and one that changes ST. -/
theorem witness_TicksLeaveKeysAndTimers :
    nextIs (tick (regs [(1, 5)]) 0xF115) (fun t => t.dt != (regs [(1, 5)]).dt) = true ∧
    nextIs (tick (regs [(1, 5)]) 0xF118) (fun t => t.st != (regs [(1, 5)]).st) = true := by decide

theorem witness_PcAdvancesByTwoUnlessOverridden :
    decodeWord State.reset.fetch = some .nop ∧ nextIs (step State.reset) (fun t => t == State.reset.advance) = true ∧
    Part.pc ∉ partsOf .nop := by decide

/-- A state at a jump to itself that meets the invariant and steps. -/
theorem witness_StepKeepsTheInvariant : atSelfJump.Inv ∧ nextIs (step atSelfJump) (fun t => t == atSelfJump) = true :=
  ⟨⟨by decide, fun h => absurd h (by decide), fun _ => ⟨rfl, rfl⟩⟩, by decide⟩

theorem witness_CommandSequencesKeepTheInvariant : atSelfJump.Inv := witness_StepKeepsTheInvariant.1

/-- At an armed key wait. -/
def atWait : State := (State.reset.withFetchWord 16 0xF50A).armLatch 5

theorem witness_ParkedStatesStayParked :
    (atSelfJump.Inv ∧ atSelfJump.Parked) ∧ (atWait.Inv ∧ atWait.Parked) :=
  ⟨⟨witness_StepKeepsTheInvariant.1, .inl ⟨0x200, by decide, rfl⟩⟩,
   ⟨by decide, fun _ => by decide, fun h => absurd h (by decide)⟩, .inr ⟨rfl, rfl⟩⟩

end Sys2Proof.Tests
end

