-- ==== Sys2Proof/Proofs/TickDriver.lean ====
section
/-! SUPPORT. Frames compose, the frame of each timer update, and the `tick_frame` statement of 40_tick_driver.md R52. -/

namespace Sys2Proof.Machine

/-! ### Frames -/

theorem SamePart.trans {s t u : State} {p : Part} (hst : SamePart s t p) (htu : SamePart t u p) : SamePart s u p := by
  cases p with
  | mem | regs | key => exact fun a => (htu a).trans (hst a)
  | fb => exact fun x y => (htu x y).trans (hst x y)
  | stack => exact ⟨htu.1.trans hst.1, htu.2.trans hst.2⟩
  | latch =>
    obtain ⟨hactive, hreg, hkey⟩ := hst
    obtain ⟨hactive', hreg', hkey'⟩ := htu
    exact ⟨hactive'.trans hactive, hreg'.trans hreg, hkey'.trans hkey⟩
  | i | pc | dt | st | draws => exact Eq.trans htu hst

/-- Two changes in a row change no part that neither of them changes. -/
theorem OnlyChanges.trans {ps qs : List Part} {s t u : State} (hst : OnlyChanges ps s t) (htu : OnlyChanges qs t u) :
    OnlyChanges (ps ++ qs) s u := by
  obtain ⟨hparts, hparams⟩ := hst
  obtain ⟨hparts', hparams'⟩ := htu
  refine ⟨fun p hp => ?_, hparams'.trans hparams⟩
  rw [List.mem_append, not_or] at hp
  exact (hparts p hp.1).trans (hparts' p hp.2)

theorem setDt_onlyChanges (s : State) (b : Byte) : OnlyChanges [.dt] s (s.setDt b) :=
  ⟨fun p hp => by cases p <;> simp [SamePart] at hp ⊢, s.setDt_params b⟩

theorem setSt_onlyChanges (s : State) (b : Byte) : OnlyChanges [.st] s (s.setSt b) :=
  ⟨fun p hp => by cases p <;> simp [SamePart] at hp ⊢, s.setSt_params b⟩

/-! ### `tick_frame` -/

/-- The byte subtraction of R52 does not wrap: a timer at 0 stays there, which is what truncated subtraction says. -/
theorem countDown_toNat (b : Byte) : (countDown b).toNat = b.toNat - 1 := by
  unfold countDown
  split
  next hpos => rw [BitVec.toNat_sub_of_le (show 1 ≤ b from hpos)]; rfl
  next hzero => omega

@[simp] theorem tickFrame_dt (s : State) : s.tickFrame.dt = countDown s.dt := rfl
@[simp] theorem tickFrame_st (s : State) : s.tickFrame.st = countDown s.st := rfl

theorem tickFrame_onlyChanges (s : State) : OnlyChanges [.dt, .st] s s.tickFrame :=
  (setDt_onlyChanges s _).trans (setSt_onlyChanges _ _)

/-- Settles O45: each timer is one `countDown`, and `tickFrame` is the two timer updates in a row. -/
theorem tickFrameDecrementsTheTimers : Obligations.TickFrameDecrementsTheTimers := fun s =>
  ⟨s.tickFrame, rfl, by rw [tickFrame_dt, countDown_toNat], by rw [tickFrame_st, countDown_toNat],
    tickFrame_onlyChanges s⟩

end Sys2Proof.Machine
end

section
/-! SUPPORT. The words of the control flow rows, the rules of pc, of a skip and of CALL, and the statements of
41_control_flow.md R60, R61 and R65 to R68. -/

namespace Sys2Proof.Machine

/-! ### Words that a row's match selects -/

/-- A row with mask F000 selects by d1 alone. -/
theorem selects_of_fieldD1 {c m : Word} {f : Word → Instr} (hm : m.extractLsb' 12 4 = 0xF#4)
    (hf : ∀ w, fieldD1 w = fieldD1 c → decodeWord w = some (f w)) : Selects c m f :=
  fun w hw => hf w (fieldD1_of_match hw hm)

/-- A row with mask F00F selects by d1 and d4. -/
theorem selects_of_fieldD1_fieldD4 {c m : Word} {f : Word → Instr} (hm : m.extractLsb' 12 4 = 0xF#4)
    (hm' : m.extractLsb' 0 4 = 0xF#4)
    (hf : ∀ w, fieldD1 w = fieldD1 c → fieldD4 w = fieldD4 c → decodeWord w = some (f w)) : Selects c m f :=
  fun w hw => hf w (fieldD1_of_match hw hm) (fieldD4_of_match hw hm')

theorem selects_jmp : Selects 0x1000#16 0xF000#16 (fun w => .jmp (fieldNnn w)) :=
  selects_of_fieldD1 rfl fun w h => by rw [decodeWord, h]; rfl

theorem selects_call : Selects 0x2000#16 0xF000#16 (fun w => .call (fieldNnn w)) :=
  selects_of_fieldD1 rfl fun w h => by rw [decodeWord, h]; rfl

theorem selects_skipEqNn : Selects 0x3000#16 0xF000#16 (fun w => .skipEqNn (fieldX w) (fieldNn w)) :=
  selects_of_fieldD1 rfl fun w h => by rw [decodeWord, h]; rfl

theorem selects_skipNeqNn : Selects 0x4000#16 0xF000#16 (fun w => .skipNeqNn (fieldX w) (fieldNn w)) :=
  selects_of_fieldD1 rfl fun w h => by rw [decodeWord, h]; rfl

theorem selects_skipEqVy : Selects 0x5000#16 0xF00F#16 (fun w => .skipEqVy (fieldX w) (fieldY w)) :=
  selects_of_fieldD1_fieldD4 rfl rfl fun w h h4 => by rw [decodeWord, h, h4]; rfl

theorem selects_skipNeqVy : Selects 0x9000#16 0xF00F#16 (fun w => .skipNeqVy (fieldX w) (fieldY w)) :=
  selects_of_fieldD1_fieldD4 rfl rfl fun w h h4 => by rw [decodeWord, h, h4]; rfl

/-! ### The program counter and one tick -/

theorem setPc_onlyChanges (s : State) (w : Word) : OnlyChanges [.pc] s (s.setPc w) :=
  ⟨fun p hp => by cases p <;> simp [SamePart] at hp ⊢, s.setPc_params w⟩

theorem advance_pc_toNat (s : State) : s.advance.pc.toNat = (s.pc.toNat + 2) % 65536 := BitVec.toNat_add _ _

@[simp] theorem target_toNat (nnn : Addr12) : (target nnn).toNat = nnn.toNat :=
  BitVec.toNat_setWidth_of_le (by decide)

/-- A jump's own address, compared as numbers in the statements, is its target as a word. -/
theorem target_eq_of_toNat {nnn : Addr12} {w : Word} (h : nnn.toNat = w.toNat) : target nnn = w :=
  BitVec.eq_of_toNat_eq ((target_toNat nnn).trans h)

theorem step_of_decode {s : State} {i : Instr} (h : decodeWord s.fetch = some i) : step s = exec i s.advance := by
  rw [step, h]

/-- The fetched word depends on memory and pc only. -/
theorem fetch_congr {s t : State} (hmem : SamePart s t .mem) (hpc : t.pc = s.pc) : t.fetch = s.fetch := by
  rw [State.fetch, State.wordAt, hpc, hmem, hmem]; rfl

/-- Settles O16: the frame of a pc write; a self-jump writes back the pc that the default advance moved. -/
theorem jmpSetsPc : Obligations.JmpSetsPc := by
  refine ⟨selects_jmp, fun s nnn => ⟨_, rfl, target_toNat nnn, setPc_onlyChanges s _⟩, fun s nnn hdec hself => ?_⟩
  calc step s = .next (s.advance.setPc (target nnn)) := step_of_decode hdec
    _ = .next (s.advance.setPc s.pc) := by rw [target_eq_of_toNat hself]
    _ = .next s := rfl

/-! ### Skips -/

theorem skipIf_onlyChanges (s : State) (c : Bool) : OnlyChanges [.pc] s (s.skipIf c) := by
  rw [s.skipIf_eq]; exact setPc_onlyChanges s _

theorem skipIf_pc_toNat_of_pos (s : State) {p : Prop} [Decidable p] (h : p) :
    (s.skipIf (decide p)).pc.toNat = (s.pc.toNat + 2) % 65536 := by
  rw [decide_eq_true h]; exact advance_pc_toNat s

theorem skipIf_pc_of_neg (s : State) {p : Prop} [Decidable p] (h : ¬ p) : (s.skipIf (decide p)).pc = s.pc := by
  rw [decide_eq_false h]; rfl

/-- Settles O21: all four are one `skipIf`, of an equality or of its negation. -/
theorem registerSkipsAddTwoWhenTheyHold : Obligations.RegisterSkipsAddTwoWhenTheyHold :=
  ⟨⟨selects_skipEqNn, fun s _ _ =>
      ⟨_, rfl, skipIf_onlyChanges s _, skipIf_pc_toNat_of_pos s, skipIf_pc_of_neg s⟩⟩,
    ⟨selects_skipNeqNn, fun s _ _ =>
      ⟨_, rfl, skipIf_onlyChanges s _, skipIf_pc_toNat_of_pos s, fun h => skipIf_pc_of_neg s (not_not_intro h)⟩⟩,
    ⟨selects_skipEqVy, fun s _ _ =>
      ⟨_, rfl, skipIf_onlyChanges s _, skipIf_pc_toNat_of_pos s, skipIf_pc_of_neg s⟩⟩,
    ⟨selects_skipNeqVy, fun s _ _ =>
      ⟨_, rfl, skipIf_onlyChanges s _, skipIf_pc_toNat_of_pos s, fun h => skipIf_pc_of_neg s (not_not_intro h)⟩⟩⟩

/-! ### CALL -/

/-- The frame of a transfer through the stack: whatever entries, SP and pc it leaves. -/
theorem setStackPc_onlyChanges (s : State) (entries : Vector Word 16) (sp : Fin 17) (pc : Word) :
    OnlyChanges [.pc, .stack] s { s with stack := entries, sp := sp, pc := pc } := by
  refine ⟨fun p hp => ?_, rfl⟩
  cases p with
  | pc | stack => simp at hp
  | mem | regs | key => exact fun _ => rfl
  | fb => exact fun _ _ => rfl
  | latch => exact ⟨rfl, rfl, rfl⟩
  | i | dt | st | draws => rfl

/-- CALL with room on the stack, in terms of what the next state holds. -/
theorem exec_call_of_room (s : State) (nnn : Addr12) (h : s.sp.val < 16) :
    ∃ t, exec (.call nnn) s = .next t ∧ t.stack = s.stack.set s.sp.val s.pc h ∧ t.sp.val = s.sp.val + 1 ∧
      t.pc = target nnn ∧ OnlyChanges [.pc, .stack] s t := by
  rcases execCall_cases nnn s with ⟨hfull, -⟩ | ⟨_, hnext⟩
  · omega
  · exact ⟨_, hnext, rfl, rfl, rfl, setStackPc_onlyChanges s _ _ _⟩

theorem exec_call_of_full (s : State) (nnn : Addr12) (h : s.sp.val = 16) :
    exec (.call nnn) s = .fault .stackOverflow := by
  rcases execCall_cases nnn s with ⟨-, hfault⟩ | ⟨hroom, -⟩
  · exact hfault
  · omega

/-- A CALL fetched on a full stack answers the error and leaves the whole state (40_tick_driver.md R51). -/
theorem tickCpu_call_of_full {s : State} {nnn : Addr12} (hdec : decodeWord s.fetch = some (.call nnn))
    (h : s.sp.val = 16) : command .tickCpu s = (s, .err .stackOverflow) := by
  rw [command, step_of_decode hdec, exec_call_of_full s.advance nnn h]; rfl

/-! ### A CALL to its own address -/

/-- The word at pc is a CALL to pc itself. -/
def State.AtSelfCall (s : State) (nnn : Addr12) : Prop := decodeWord s.fetch = some (.call nnn) ∧ target nnn = s.pc

/-- One tick pushes an entry and comes back to the same CALL: memory and pc are as they were. -/
theorem State.AtSelfCall.tickCpu {s : State} {nnn : Addr12} (hs : s.AtSelfCall nnn) (h : s.sp.val < 16) :
    ∃ t, command .tickCpu s = (t, .ok) ∧ t.AtSelfCall nnn ∧ t.sp.val = s.sp.val + 1 := by
  obtain ⟨hdec, hself⟩ := hs
  obtain ⟨t, hexec, -, hsp, hpc, hparts, -⟩ := exec_call_of_room s.advance nnn h
  have hfetch : t.fetch = s.fetch := fetch_congr (hparts .mem (by decide)) (hpc.trans hself)
  refine ⟨t, ?_, ⟨hfetch ▸ hdec, hpc.symm⟩, hsp⟩
  rw [command, step_of_decode hdec, hexec]; rfl

/-- As many ticks as there is room push as many entries. -/
theorem State.AtSelfCall.run {nnn : Addr12} (n : Nat) {s : State} (hs : s.AtSelfCall nnn) (h : s.sp.val + n ≤ 16) :
    ∃ t, runCommands (List.replicate n .tickCpu) s = (t, List.replicate n .ok) ∧ t.AtSelfCall nnn ∧
      t.sp.val = s.sp.val + n := by
  induction n generalizing s with
  | zero => exact ⟨s, rfl, hs, rfl⟩
  | succ n ih =>
    obtain ⟨u, htick, hu, husp⟩ := hs.tickCpu (by omega)
    obtain ⟨t, hrun, ht, htsp⟩ := ih hu (by omega)
    exact ⟨t, by simp only [List.replicate_succ, runCommands, htick, hrun], ht, by omega⟩

/-- Settles O17: CALL by whether there is room, and the self-call by induction on the number of ticks. -/
theorem callPushesTheReturnAddress : Obligations.CallPushesTheReturnAddress := by
  refine ⟨selects_call, fun s nnn h => ?_, exec_call_of_full, advance_pc_toNat, fun s nnn hdec hself hempty => ?_⟩
  · obtain ⟨t, hexec, hstack, hsp, hpc, hframe⟩ := exec_call_of_room s nnn h
    refine ⟨t, hexec, ?_, fun k hk hne => ?_, hsp, hpc ▸ target_toNat nnn, hframe⟩
    · simp only [hstack, Vector.getElem_set_self]
    · simp only [hstack, Vector.getElem_set_ne h hk hne.symm]
  · have hs : s.AtSelfCall nnn := ⟨hdec, target_eq_of_toNat hself⟩
    obtain ⟨t, hrun, ⟨hdec', -⟩, hsp⟩ := hs.run 16 (by omega)
    have hfull : t.sp.val = 16 := by omega
    exact ⟨t, hrun, hfull, tickCpu_call_of_full hdec' hfull⟩

end Sys2Proof.Machine
end

section
/-! SUPPORT. The words of the register-write rows, the rule of one V write, and the statements of 42_alu.md R72 to R74,
R76 and R77. -/

namespace Sys2Proof.Machine

/-! ### The words of the rows -/

theorem selects_setNn : Selects 0x6000#16 0xF000#16 (fun w => .setNn (fieldX w) (fieldNn w)) :=
  selects_of_fieldD1 rfl fun w h => by rw [decodeWord, h]; rfl

theorem selects_addNn : Selects 0x7000#16 0xF000#16 (fun w => .addNn (fieldX w) (fieldNn w)) :=
  selects_of_fieldD1 rfl fun w h => by rw [decodeWord, h]; rfl

/-- A row with d1 = 8 and mask F00F selects by what `decode8` answers to d4. -/
theorem selects_of_decode8 {c : Word} {f : Word → Instr} (hc : fieldD1 c = 8#4)
    (hf : ∀ w, fieldD4 w = fieldD4 c → decode8 w = some (f w)) : Selects c 0xF00F#16 f :=
  selects_of_fieldD1_fieldD4 rfl rfl fun w h h4 => by rw [decodeWord, h, hc]; exact hf w h4

theorem selects_setVy : Selects 0x8000#16 0xF00F#16 (fun w => .setVy (fieldX w) (fieldY w)) :=
  selects_of_decode8 rfl fun w h => by rw [decode8, h]; rfl

theorem selects_and : Selects 0x8002#16 0xF00F#16 (fun w => .and (fieldX w) (fieldY w)) :=
  selects_of_decode8 rfl fun w h => by rw [decode8, h]; rfl

theorem selects_xor : Selects 0x8003#16 0xF00F#16 (fun w => .xor (fieldX w) (fieldY w)) :=
  selects_of_decode8 rfl fun w h => by rw [decode8, h]; rfl

/-! ### One register write -/

theorem setV_onlyRegs (s : State) (x : RegIdx) (b : Byte) : OnlyRegs (· = x) s (s.setV x b) :=
  fun _ hr => s.getV_setV_ne hr b

theorem setV_onlyChanges (s : State) (x : RegIdx) (b : Byte) : OnlyChanges [.regs] s (s.setV x b) :=
  ⟨fun p hp => by cases p <;> simp [SamePart] at hp ⊢, s.setV_params x b⟩

/-- Settles O22: each is one `setV`, of the immediate, of the byte sum (which wraps at 256) or of V[y]. -/
theorem loadsAndAddImmediateWriteVx : Obligations.LoadsAndAddImmediateWriteVx :=
  ⟨⟨selects_setNn, fun s x _ =>
      ⟨_, rfl, s.getV_setV_self x _, setV_onlyRegs s x _, setV_onlyChanges s x _⟩⟩,
    ⟨selects_addNn, fun s x _ =>
      ⟨_, rfl, by rw [s.getV_setV_self, BitVec.toNat_add], setV_onlyRegs s x _, setV_onlyChanges s x _⟩⟩,
    ⟨selects_setVy, fun s x _ =>
      ⟨_, rfl, s.getV_setV_self x _, setV_onlyRegs s x _, setV_onlyChanges s x _⟩⟩⟩

/-- Settles O23: each is one `setV`, of a bitwise operation on the two bytes. -/
theorem andXorWriteVxBitwise : Obligations.AndXorWriteVxBitwise :=
  ⟨⟨selects_and, fun s x _ =>
      ⟨_, rfl, fun _ => by rw [s.getV_setV_self, BitVec.getLsbD_and], setV_onlyRegs s x _, setV_onlyChanges s x _⟩⟩,
    ⟨selects_xor, fun s x _ =>
      ⟨_, rfl, fun _ => by rw [s.getV_setV_self, BitVec.getLsbD_xor], setV_onlyRegs s x _, setV_onlyChanges s x _⟩⟩⟩

end Sys2Proof.Machine
end

section
/-! SUPPORT. The words of the index rows, the rule of one I write, and the statement of 43_index_memory.md R85 and R87. -/

namespace Sys2Proof.Machine

/-! ### The words of the rows -/

theorem selects_setI : Selects 0xA000#16 0xF000#16 (fun w => .setI (fieldNnn w)) :=
  selects_of_fieldD1 rfl fun w h => by rw [decodeWord, h]; rfl

/-- A row with d1 = F and mask F0FF selects by what `decodeF` answers to the low byte. -/
theorem selects_of_decodeF {c : Word} {f : Word → Instr} (hc : fieldD1 c = 0xF#4)
    (hf : ∀ w, fieldNn w = fieldNn c → decodeF w = some (f w)) : Selects c 0xF0FF#16 f := by
  intro w hw
  rw [decodeWord, fieldD1_of_match hw rfl, hc]
  exact hf w (fieldNn_of_match hw rfl)

theorem selects_setIFont : Selects 0xF029#16 0xF0FF#16 (fun w => .setIFont (fieldX w)) :=
  selects_of_decodeF rfl fun w h => by rw [decodeF, h]; rfl

/-! ### One write of I -/

theorem setI_onlyChanges (s : State) (w : Word) : OnlyChanges [.i] s (s.setI w) :=
  ⟨fun p hp => by cases p <;> simp [SamePart] at hp ⊢, s.setI_params w⟩

/-! ### Glyph addresses -/

theorem lowNibble_val (b : Byte) : (lowNibble b).val = b.toNat % 16 :=
  BitVec.extractLsb'_toNat 0 4 b

/-- The largest glyph address is 75, so the 16-bit address does not wrap. -/
theorem glyphAddr_toNat (b : Byte) : (glyphAddr b).toNat = 5 * (b.toNat % 16) := by
  rw [glyphAddr, BitVec.toNat_ofNat, lowNibble_val, Config.fontBase, Config.glyphBytes]
  omega

/-- Settles O30: each is one `setI`, of the zero-extended operand or of the glyph address. -/
theorem setIAndFontWriteIndex : Obligations.SetIAndFontWriteIndex :=
  ⟨⟨selects_setI, fun s nnn => ⟨_, rfl, target_toNat nnn, setI_onlyChanges s _⟩⟩,
    ⟨selects_setIFont, fun s x => ⟨_, rfl, glyphAddr_toNat (s.getV x), setI_onlyChanges s _⟩⟩⟩

end Sys2Proof.Machine
end

section
/-! SUPPORT. The word of the CLS row, the frame of a framebuffer write, what `get_display` lists, and the statement of
44_display.md R91. -/

namespace Sys2Proof.Machine

theorem selects_cls : Selects 0x00E0#16 0xFFFF#16 (fun _ => .cls) :=
  fun _ hw => by rw [eq_of_match hw]; rfl

theorem setFb_onlyChanges (s : State) (f : Framebuffer) : OnlyChanges [.fb] s (s.setFb f) :=
  ⟨fun p hp => by cases p <;> simp [SamePart] at hp ⊢, s.setFb_params f⟩

/-! ### The display -/

/-- `get_display` lists 32 rows of 64 pixels (40_tick_driver.md R55). -/
theorem display_length (s : State) : s.display.length = 2048 := by
  simp [State.display, List.length_flatMap]

/-- Every entry of the display is some pixel of the screen. -/
theorem exists_pixel_of_mem_display {s : State} {p : Bool} (h : p ∈ s.display) : ∃ u v, s.pixel u v = p := by
  obtain ⟨row, hrow, hp⟩ := List.mem_flatMap.mp h
  obtain ⟨v, hv, rfl⟩ := Vector.mem_iff_getElem.mp (Vector.mem_toList_iff.mp hrow)
  obtain ⟨u, hu, rfl⟩ := Vector.mem_iff_getElem.mp (Vector.mem_toList_iff.mp hp)
  exact ⟨⟨u, hu⟩, ⟨v, hv⟩, rfl⟩

/-- CLS leaves no pixel on. -/
theorem pixel_setFb_blank (s : State) (u : Fin 64) (v : Fin 32) : (s.setFb Framebuffer.blank).pixel u v = false :=
  Framebuffer.get_blank u v

/-- Settles O37: CLS is one framebuffer write, and the display lists nothing but pixels. -/
theorem clsClearsTheScreen : Obligations.ClsClearsTheScreen := by
  refine ⟨selects_cls, fun s => ⟨s.setFb Framebuffer.blank, rfl, pixel_setFb_blank s, display_length _,
    fun p hp => ?_, setFb_onlyChanges s _⟩⟩
  obtain ⟨u, v, rfl⟩ := exists_pixel_of_mem_display hp
  exact pixel_setFb_blank s u v

end Sys2Proof.Machine
end

section
/-! SUPPORT. What a tick answers to a fault, the words that decode to nothing (30_encoding.md R45), RET on an empty stack,
and the statements of 60_exceptions.md R102 to R104. -/

namespace Sys2Proof.Machine

/-- A fault of the step is the answer of `tick_cpu`, and the state stays (40_tick_driver.md R51). -/
theorem tickCpu_of_fault {s : State} {e : Fault} (h : step s = .fault e) : command .tickCpu s = (s, .err e) := by
  rw [command, h]; rfl

/-! ### Words that decode to nothing -/

/-- d1 needs no reduction: a word is below 2^16. -/
theorem fieldD1_toNat_eq_div (w : Word) : (fieldD1 w).toNat = w.toNat / 4096 := by
  rw [fieldD1_toNat]; have := w.isLt; omega

theorem decode0_eq_none {w : Word} (hnop : w ≠ 0x0000#16) (hcls : w ≠ 0x00E0#16) (hret : w ≠ 0x00EE#16) :
    decode0 w = none := by
  rw [decode0, if_neg hnop, if_neg hcls, if_neg hret]

theorem decode8_eq_none {w : Word} (h : 9 ≤ (fieldD4 w).toNat) : decode8 w = none := by
  unfold decode8; split <;> simp_all

theorem decodeE_eq_none {w : Word} (h : (fieldNn w).toNat ∉ [0x9E, 0xA1]) : decodeE w = none := by
  unfold decodeE; split <;> simp_all

theorem decodeF_eq_none {w : Word}
    (h : (fieldNn w).toNat ∉ [0x07, 0x0A, 0x15, 0x18, 0x1E, 0x29, 0x33, 0x55, 0x65]) : decodeF w = none := by
  unfold decodeF; split <;> simp_all

/-- The words of the classes of R45 match no row: d1 selects the arm, which looks at the rest of the word. -/
theorem decodeWord_of_unsupportedClass {w : Word} (h : UnsupportedClass w) : decodeWord w = none := by
  have hd4 : (fieldD4 w).toNat = w.toNat % 16 := by rw [fieldD4_toNat, Nat.div_one]
  have hnn : (fieldNn w).toNat = w.toNat % 256 := by rw [fieldNn_toNat, Nat.div_one]
  have hd4_ne (hne : w.toNat % 16 ≠ 0) : fieldD4 w ≠ 0x0#4 := fun h0 => hne (by rw [← hd4, h0]; rfl)
  rcases h with ⟨hd1, hnop, hcls, hret⟩ | ⟨hd1, hne⟩ | ⟨hd1, hle⟩ | ⟨hd1, hne⟩ | ⟨hd1, hmem⟩ | ⟨hd1, hmem⟩ <;>
    rw [decodeWord, fieldD1_toNat_eq_div, hd1]
  · exact decode0_eq_none (ne_of_apply_ne _ hnop) (ne_of_apply_ne _ hcls) (ne_of_apply_ne _ hret)
  · exact if_neg (hd4_ne hne)
  · exact decode8_eq_none (hd4 ▸ hle)
  · exact if_neg (hd4_ne hne)
  · exact decodeE_eq_none (hnn ▸ hmem)
  · exact decodeF_eq_none (hnn ▸ hmem)

/-- Settles O9: a word of a listed class decodes to nothing, and a step on such a word can only fault. -/
theorem unsupportedWordRaisesItsError : Obligations.UnsupportedWordRaisesItsError := by
  intro s hclass
  have hfault : step s = .fault (.unsupportedOpcode s.fetch) := by
    rw [step, decodeWord_of_unsupportedClass hclass]; rfl
  exact ⟨hfault, tickCpu_of_fault hfault⟩

/-! ### CALL on a full stack, RET on an empty one -/

/-- Settles O12: the two rules of CALL on a full stack. -/
theorem callOnFullStackRaisesOverflow : Obligations.CallOnFullStackRaisesOverflow :=
  fun s nnn hfull => ⟨exec_call_of_full s nnn hfull, fun hdec => tickCpu_call_of_full hdec hfull⟩

theorem exec_ret_of_empty (s : State) (h : s.sp.val = 0) : exec .ret s = .fault .stackUnderflow := by
  rcases execRet_cases s with ⟨-, hfault⟩ | ⟨hoccupied, -⟩
  · exact hfault
  · omega

/-- Settles O13: the default advance that precedes RET in a tick leaves SP. -/
theorem retOnEmptyStackRaisesUnderflow : Obligations.RetOnEmptyStackRaisesUnderflow :=
  fun s hempty => ⟨exec_ret_of_empty s hempty, fun hdec =>
    tickCpu_of_fault ((step_of_decode hdec).trans (exec_ret_of_empty s.advance hempty))⟩

end Sys2Proof.Machine
end

section
/-! SUPPORT. The words of the remaining rows of 30_encoding.md R44, the decoder against the encoder, the opcode map and the
classes of R45, and the statements of the encoding. -/

namespace Sys2Proof.Machine

/-! ### The words of the rows -/

theorem selects_nop : Selects 0x0000#16 0xFFFF#16 (fun _ => .nop) :=
  fun _ hw => by rw [eq_of_match hw]; rfl

theorem selects_ret : Selects 0x00EE#16 0xFFFF#16 (fun _ => .ret) :=
  fun _ hw => by rw [eq_of_match hw]; rfl

theorem selects_or : Selects 0x8001#16 0xF00F#16 (fun w => .or (fieldX w) (fieldY w)) :=
  selects_of_decode8 rfl fun w h => by rw [decode8, h]; rfl

theorem selects_addVy : Selects 0x8004#16 0xF00F#16 (fun w => .addVy (fieldX w) (fieldY w)) :=
  selects_of_decode8 rfl fun w h => by rw [decode8, h]; rfl

theorem selects_subVy : Selects 0x8005#16 0xF00F#16 (fun w => .subVy (fieldX w) (fieldY w)) :=
  selects_of_decode8 rfl fun w h => by rw [decode8, h]; rfl

theorem selects_rshift : Selects 0x8006#16 0xF00F#16 (fun w => .rshift (fieldX w) (fieldY w)) :=
  selects_of_decode8 rfl fun w h => by rw [decode8, h]; rfl

theorem selects_rsubVy : Selects 0x8007#16 0xF00F#16 (fun w => .rsubVy (fieldX w) (fieldY w)) :=
  selects_of_decode8 rfl fun w h => by rw [decode8, h]; rfl

theorem selects_lshift : Selects 0x8008#16 0xF00F#16 (fun w => .lshift (fieldX w) (fieldY w)) :=
  selects_of_decode8 rfl fun w h => by rw [decode8, h]; rfl

theorem selects_jmpV0 : Selects 0xB000#16 0xF000#16 (fun w => .jmpV0 (fieldNnn w)) :=
  selects_of_fieldD1 rfl fun w h => by rw [decodeWord, h]; rfl

theorem selects_rand : Selects 0xC000#16 0xF000#16 (fun w => .rand (fieldX w) (fieldNn w)) :=
  selects_of_fieldD1 rfl fun w h => by rw [decodeWord, h]; rfl

theorem selects_draw : Selects 0xD000#16 0xF000#16 (fun w => .draw (fieldX w) (fieldY w) (fieldN w)) :=
  selects_of_fieldD1 rfl fun w h => by rw [decodeWord, h]; rfl

/-- A row with d1 = E and mask F0FF selects by what `decodeE` answers to the low byte. -/
theorem selects_of_decodeE {c : Word} {f : Word → Instr} (hc : fieldD1 c = 0xE#4)
    (hf : ∀ w, fieldNn w = fieldNn c → decodeE w = some (f w)) : Selects c 0xF0FF#16 f := by
  intro w hw
  rw [decodeWord, fieldD1_of_match hw rfl, hc]
  exact hf w (fieldNn_of_match hw rfl)

theorem selects_skipKey : Selects 0xE09E#16 0xF0FF#16 (fun w => .skipKey (fieldX w)) :=
  selects_of_decodeE rfl fun w h => by rw [decodeE, h]; rfl

theorem selects_skipNkey : Selects 0xE0A1#16 0xF0FF#16 (fun w => .skipNkey (fieldX w)) :=
  selects_of_decodeE rfl fun w h => by rw [decodeE, h]; rfl

theorem selects_getDt : Selects 0xF007#16 0xF0FF#16 (fun w => .getDt (fieldX w)) :=
  selects_of_decodeF rfl fun w h => by rw [decodeF, h]; rfl

theorem selects_waitKey : Selects 0xF00A#16 0xF0FF#16 (fun w => .waitKey (fieldX w)) :=
  selects_of_decodeF rfl fun w h => by rw [decodeF, h]; rfl

theorem selects_setDt : Selects 0xF015#16 0xF0FF#16 (fun w => .setDt (fieldX w)) :=
  selects_of_decodeF rfl fun w h => by rw [decodeF, h]; rfl

theorem selects_setSt : Selects 0xF018#16 0xF0FF#16 (fun w => .setSt (fieldX w)) :=
  selects_of_decodeF rfl fun w h => by rw [decodeF, h]; rfl

theorem selects_addI : Selects 0xF01E#16 0xF0FF#16 (fun w => .addI (fieldX w)) :=
  selects_of_decodeF rfl fun w h => by rw [decodeF, h]; rfl

theorem selects_bcd : Selects 0xF033#16 0xF0FF#16 (fun w => .bcd (fieldX w)) :=
  selects_of_decodeF rfl fun w h => by rw [decodeF, h]; rfl

theorem selects_store : Selects 0xF055#16 0xF0FF#16 (fun w => .store (fieldX w)) :=
  selects_of_decodeF rfl fun w h => by rw [decodeF, h]; rfl

theorem selects_load : Selects 0xF065#16 0xF0FF#16 (fun w => .load (fieldX w)) :=
  selects_of_decodeF rfl fun w h => by rw [decodeF, h]; rfl

/-- Settles O1: each word is evaluated. -/
theorem specWordsDecode : Obligations.SpecWordsDecode := by
  unfold Obligations.SpecWordsDecode
  decide

/-! ### Decoding what was encoded -/

/-- Format by format: d1 selects the arm, and the fields read back are the operands written. -/
theorem decodeWord_encode (i : Instr) : decodeWord (encode i) = some i := by
  cases i with
  | nop | cls | ret => rfl
  | jmp nnn | call nnn | setI nnn | jmpV0 nnn =>
    rw [encode, decodeWord, fieldD1_encodeNnn, fieldNnn_encodeNnn]; rfl
  | skipEqNn x nn | skipNeqNn x nn | setNn x nn | addNn x nn | rand x nn =>
    rw [encode, decodeWord, fieldD1_encodeXnn, fieldX_encodeXnn, fieldNn_encodeXnn]; rfl
  | skipEqVy x y | skipNeqVy x y =>
    rw [encode, decodeWord, fieldD1_encodeXyn, fieldD4_encodeXyn, fieldX_encodeXyn, fieldY_encodeXyn]; rfl
  | draw x y n =>
    rw [encode, decodeWord, fieldD1_encodeXyn, fieldN_encodeXyn, fieldX_encodeXyn, fieldY_encodeXyn]; rfl
  | setVy x y | or x y | and x y | xor x y | addVy x y | subVy x y | rshift x y | rsubVy x y | lshift x y =>
    rw [encode, decodeWord, fieldD1_encodeXyn]
    show decode8 _ = _
    rw [decode8, fieldD4_encodeXyn, fieldX_encodeXyn, fieldY_encodeXyn]; rfl
  | skipKey x | skipNkey x =>
    rw [encode, decodeWord, fieldD1_encodeX]
    show decodeE _ = _
    rw [decodeE, fieldNn_encodeX, fieldX_encodeX]; rfl
  | getDt x | waitKey x | setDt x | setSt x | addI x | setIFont x | bcd x | store x | load x =>
    rw [encode, decodeWord, fieldD1_encodeX]
    show decodeF _ = _
    rw [decodeF, fieldNn_encodeX, fieldX_encodeX]; rfl

theorem decodeBytes_wordBytes_append (w : Word) (rest : List Byte) {i : Instr} (h : decodeWord w = some i) :
    decodeBytes (wordBytes w ++ rest) = .ok (i, rest) := by
  simp only [wordBytes, List.cons_append, List.nil_append, decodeBytes, joinBytes_of_word, h]

/-- Settles O2: the bytes of a word join to the word, and each word decodes by its format's fields. -/
theorem decodeOfEncodeIsTheInstruction : Obligations.DecodeOfEncodeIsTheInstruction :=
  ⟨decodeWord_encode, fun i rest => decodeBytes_wordBytes_append (encode i) rest (decodeWord_encode i)⟩

/-! ### Encoding what was decoded -/

/-- A word is put together again from its fields, in each format. -/
theorem encodeNnn_of_fields {w : Word} {d1 : BitVec 4} (h : (fieldD1 w).toNat = d1.toNat) :
    encodeNnn d1 (fieldNnn w) = w := by
  apply BitVec.eq_of_toNat_eq
  rw [encodeNnn_toNat, ← h, fieldD1_toNat, fieldNnn_toNat]
  have := w.isLt; omega

theorem encodeXnn_of_fields {w : Word} {d1 : BitVec 4} (h : (fieldD1 w).toNat = d1.toNat) :
    encodeXnn d1 (fieldX w) (fieldNn w) = w := by
  apply BitVec.eq_of_toNat_eq
  rw [encodeXnn_toNat, ← h, fieldD1_toNat, fieldX_val, fieldNn_toNat]
  have := w.isLt; omega

theorem encodeX_of_fields {w : Word} {d1 : BitVec 4} {low : Byte} (h : (fieldD1 w).toNat = d1.toNat)
    (hlow : (fieldNn w).toNat = low.toNat) : encodeX d1 (fieldX w) low = w := by
  rw [← BitVec.eq_of_toNat_eq hlow]; exact encodeXnn_of_fields h

theorem encodeXyn_of_fields {w : Word} {d1 d4 : BitVec 4} (h : (fieldD1 w).toNat = d1.toNat)
    (h4 : (fieldD4 w).toNat = d4.toNat) : encodeXyn d1 (fieldX w) (fieldY w) d4 = w := by
  apply BitVec.eq_of_toNat_eq
  rw [encodeXyn_toNat, ← h, ← h4, fieldD1_toNat, fieldX_val, fieldY_val, fieldD4_toNat]
  have := w.isLt; omega

theorem encode_of_decode0 {w : Word} {i : Instr} (h : decode0 w = some i) : encode i = w := by
  unfold decode0 at h
  split at h
  next hw => cases h; exact hw.symm
  next =>
    split at h
    next hw => cases h; exact hw.symm
    next =>
      split at h
      next hw => cases h; exact hw.symm
      next => cases h

theorem encode_of_decode8 {w : Word} {i : Instr} (hd1 : (fieldD1 w).toNat = 8) (h : decode8 w = some i) :
    encode i = w := by
  unfold decode8 at h
  split at h <;> cases h
  all_goals next hd4 => exact encodeXyn_of_fields hd1 hd4

theorem encode_of_decodeE {w : Word} {i : Instr} (hd1 : (fieldD1 w).toNat = 0xE) (h : decodeE w = some i) :
    encode i = w := by
  unfold decodeE at h
  split at h <;> cases h
  all_goals next hnn => exact encodeX_of_fields hd1 hnn

theorem encode_of_decodeF {w : Word} {i : Instr} (hd1 : (fieldD1 w).toNat = 0xF) (h : decodeF w = some i) :
    encode i = w := by
  unfold decodeF at h
  split at h <;> cases h
  all_goals next hnn => exact encodeX_of_fields hd1 hnn

/-- Arm by arm: d1 is the arm's, and the operands are the word's other fields. -/
theorem encode_of_decodeWord {w : Word} {i : Instr} (h : decodeWord w = some i) : encode i = w := by
  unfold decodeWord at h
  split at h
  case h_1 => exact encode_of_decode0 h
  case h_2 hd1 | h_3 hd1 | h_11 hd1 | h_12 hd1 => cases h; exact encodeNnn_of_fields hd1
  case h_4 hd1 | h_5 hd1 | h_7 hd1 | h_8 hd1 | h_13 hd1 => cases h; exact encodeXnn_of_fields hd1
  case h_6 hd1 | h_10 hd1 =>
    split at h <;> cases h
    next hd4 => exact encodeXyn_of_fields hd1 (congrArg BitVec.toNat hd4)
  case h_9 hd1 => exact encode_of_decode8 hd1 h
  case h_14 hd1 => cases h; exact encodeXyn_of_fields hd1 rfl
  case h_15 hd1 => exact encode_of_decodeE hd1 h
  case h_16 hd1 => exact encode_of_decodeF hd1 h
  case h_17 => cases h

/-- Settles O3: two words that decode alike are both the word of that instruction. -/
theorem encodeOfDecodeIsTheWord : Obligations.EncodeOfDecodeIsTheWord :=
  ⟨fun _ _ => encode_of_decodeWord, fun _ _ _ hw hu =>
    (encode_of_decodeWord hw).symm.trans (encode_of_decodeWord hu)⟩

/-! ### The opcode map -/

/-- Every word the row selects decodes to an instruction of the row's name. -/
def RowDecodes (r : OpcodeRow) : Prop :=
  ∃ f : Word → Instr, Selects r.mtch r.mask f ∧ ∀ w, (f w).mnemonic = r.mnemonic

theorem rowDecodes_low {r : OpcodeRow} (h : r ∈ opcodeRowsLow) : RowDecodes r := by
  simp only [opcodeRowsLow, List.mem_cons, List.not_mem_nil, or_false] at h
  rcases h with rfl | rfl | rfl | rfl | rfl | rfl | rfl | rfl | rfl | rfl
  exacts [⟨_, selects_nop, fun _ => rfl⟩, ⟨_, selects_cls, fun _ => rfl⟩, ⟨_, selects_ret, fun _ => rfl⟩,
    ⟨_, selects_jmp, fun _ => rfl⟩, ⟨_, selects_call, fun _ => rfl⟩, ⟨_, selects_skipEqNn, fun _ => rfl⟩,
    ⟨_, selects_skipNeqNn, fun _ => rfl⟩, ⟨_, selects_skipEqVy, fun _ => rfl⟩, ⟨_, selects_setNn, fun _ => rfl⟩,
    ⟨_, selects_addNn, fun _ => rfl⟩]

theorem rowDecodes_mid {r : OpcodeRow} (h : r ∈ opcodeRowsMid) : RowDecodes r := by
  simp only [opcodeRowsMid, List.mem_cons, List.not_mem_nil, or_false] at h
  rcases h with rfl | rfl | rfl | rfl | rfl | rfl | rfl | rfl | rfl | rfl | rfl | rfl | rfl | rfl
  exacts [⟨_, selects_setVy, fun _ => rfl⟩, ⟨_, selects_or, fun _ => rfl⟩, ⟨_, selects_and, fun _ => rfl⟩,
    ⟨_, selects_xor, fun _ => rfl⟩, ⟨_, selects_addVy, fun _ => rfl⟩, ⟨_, selects_subVy, fun _ => rfl⟩,
    ⟨_, selects_rshift, fun _ => rfl⟩, ⟨_, selects_rsubVy, fun _ => rfl⟩, ⟨_, selects_lshift, fun _ => rfl⟩,
    ⟨_, selects_skipNeqVy, fun _ => rfl⟩, ⟨_, selects_setI, fun _ => rfl⟩, ⟨_, selects_jmpV0, fun _ => rfl⟩,
    ⟨_, selects_rand, fun _ => rfl⟩, ⟨_, selects_draw, fun _ => rfl⟩]

theorem rowDecodes_high {r : OpcodeRow} (h : r ∈ opcodeRowsHigh) : RowDecodes r := by
  simp only [opcodeRowsHigh, List.mem_cons, List.not_mem_nil, or_false] at h
  rcases h with rfl | rfl | rfl | rfl | rfl | rfl | rfl | rfl | rfl | rfl | rfl
  exacts [⟨_, selects_skipKey, fun _ => rfl⟩, ⟨_, selects_skipNkey, fun _ => rfl⟩, ⟨_, selects_getDt, fun _ => rfl⟩,
    ⟨_, selects_waitKey, fun _ => rfl⟩, ⟨_, selects_setDt, fun _ => rfl⟩, ⟨_, selects_setSt, fun _ => rfl⟩,
    ⟨_, selects_addI, fun _ => rfl⟩, ⟨_, selects_setIFont, fun _ => rfl⟩, ⟨_, selects_bcd, fun _ => rfl⟩,
    ⟨_, selects_store, fun _ => rfl⟩, ⟨_, selects_load, fun _ => rfl⟩]

theorem rowDecodes_of_mem {r : OpcodeRow} (h : r ∈ opcodeRows) : RowDecodes r := by
  rcases List.mem_append.mp h with h | h
  · rcases List.mem_append.mp h with h | h
    · exact rowDecodes_low h
    · exact rowDecodes_mid h
  · exact rowDecodes_high h

theorem decodeWord_of_selects {w : Word} {r : OpcodeRow} (hr : r ∈ opcodeRows) (hw : r.selects w = true) :
    ∃ i, decodeWord w = some i ∧ i.mnemonic = r.mnemonic := by
  obtain ⟨f, hf, hname⟩ := rowDecodes_of_mem hr
  exact ⟨f w, hf w (eq_of_beq hw), hname w⟩

/-- The model's 35 per-instruction lemmas as one. -/
theorem encodesRow (i : Instr) : Laws.EncodesRow.Statement i := by
  cases i with
  | nop => exact Laws.EncodesRow.nop
  | cls => exact Laws.EncodesRow.cls
  | ret => exact Laws.EncodesRow.ret
  | jmp nnn => exact Laws.EncodesRow.jmp nnn
  | call nnn => exact Laws.EncodesRow.call nnn
  | skipEqNn x nn => exact Laws.EncodesRow.skipEqNn x nn
  | skipNeqNn x nn => exact Laws.EncodesRow.skipNeqNn x nn
  | skipEqVy x y => exact Laws.EncodesRow.skipEqVy x y
  | setNn x nn => exact Laws.EncodesRow.setNn x nn
  | addNn x nn => exact Laws.EncodesRow.addNn x nn
  | setVy x y => exact Laws.EncodesRow.setVy x y
  | or x y => exact Laws.EncodesRow.or x y
  | and x y => exact Laws.EncodesRow.and x y
  | xor x y => exact Laws.EncodesRow.xor x y
  | addVy x y => exact Laws.EncodesRow.addVy x y
  | subVy x y => exact Laws.EncodesRow.subVy x y
  | rshift x y => exact Laws.EncodesRow.rshift x y
  | rsubVy x y => exact Laws.EncodesRow.rsubVy x y
  | lshift x y => exact Laws.EncodesRow.lshift x y
  | skipNeqVy x y => exact Laws.EncodesRow.skipNeqVy x y
  | setI nnn => exact Laws.EncodesRow.setI nnn
  | jmpV0 nnn => exact Laws.EncodesRow.jmpV0 nnn
  | rand x nn => exact Laws.EncodesRow.rand x nn
  | draw x y n => exact Laws.EncodesRow.draw x y n
  | skipKey x => exact Laws.EncodesRow.skipKey x
  | skipNkey x => exact Laws.EncodesRow.skipNkey x
  | getDt x => exact Laws.EncodesRow.getDt x
  | waitKey x => exact Laws.EncodesRow.waitKey x
  | setDt x => exact Laws.EncodesRow.setDt x
  | setSt x => exact Laws.EncodesRow.setSt x
  | addI x => exact Laws.EncodesRow.addI x
  | setIFont x => exact Laws.EncodesRow.setIFont x
  | bcd x => exact Laws.EncodesRow.bcd x
  | store x => exact Laws.EncodesRow.store x
  | load x => exact Laws.EncodesRow.load x

/-- A word that decodes is the word of its instruction, which some row selects. -/
theorem supportedWord_of_decodeWord {w : Word} {i : Instr} (h : decodeWord w = some i) : supportedWord w = true := by
  obtain ⟨r, hr, -, hmatch⟩ := encodesRow i
  rw [encode_of_decodeWord h] at hmatch
  exact List.any_eq_true.mpr ⟨r, hr, beq_iff_eq.mpr hmatch⟩

theorem decodeWord_of_supportedWord {w : Word} (h : supportedWord w = true) : ∃ i, decodeWord w = some i := by
  obtain ⟨r, hr, hw⟩ := List.any_eq_true.mp h
  obtain ⟨i, hi, -⟩ := decodeWord_of_selects hr hw
  exact ⟨i, hi⟩

theorem opcodeRows_mnemonics_nodup : (opcodeRows.map OpcodeRow.mnemonic).Nodup := by decide

/-- Settles O4: two rows that select one word bear the name of the one instruction it decodes to, and the names are
distinct. -/
theorem decoderAgreesWithTheOpcodeMap : Obligations.DecoderAgreesWithTheOpcodeMap := by
  refine ⟨fun w r => decodeWord_of_selects, fun w hw => ?_, fun w r q hr hq hrw hqw => ?_⟩
  · refine Option.eq_none_iff_forall_ne_some.mpr fun i hi => ?_
    rw [supportedWord_of_decodeWord hi] at hw
    cases hw
  · obtain ⟨i, hi, hri⟩ := decodeWord_of_selects hr hrw
    obtain ⟨j, hj, hqj⟩ := decodeWord_of_selects hq hqw
    have hij : i = j := Option.some.inj (hi.symm.trans hj)
    exact List.inj_on_of_nodup_map opcodeRows_mnemonics_nodup hr hq (hri.symm.trans (hij ▸ hqj))

/-! ### The words that decode to nothing -/

theorem ne_of_decode0_eq_none {w : Word} (h : decode0 w = none) : w ≠ 0x0000#16 ∧ w ≠ 0x00E0#16 ∧ w ≠ 0x00EE#16 := by
  refine ⟨?_, ?_, ?_⟩ <;> rintro rfl <;> cases h

theorem le_of_decode8_eq_none {w : Word} (h : decode8 w = none) : 9 ≤ (fieldD4 w).toNat := by
  unfold decode8 at h
  split at h
  case h_10 => simp only [imp_false] at *; omega
  all_goals cases h

theorem not_mem_of_decodeE_eq_none {w : Word} (h : decodeE w = none) : (fieldNn w).toNat ∉ [0x9E, 0xA1] := by
  unfold decodeE at h
  split at h <;> simp_all

theorem not_mem_of_decodeF_eq_none {w : Word} (h : decodeF w = none) :
    (fieldNn w).toNat ∉ [0x07, 0x0A, 0x15, 0x18, 0x1E, 0x29, 0x33, 0x55, 0x65] := by
  unfold decodeF at h
  split at h <;> simp_all

theorem ne_zero_of_ite_eq_none {d : BitVec 4} {i : Instr} (h : (if d = 0x0#4 then some i else none) = none) :
    d.toNat ≠ 0 := by
  intro hd
  rw [if_pos (BitVec.eq_of_toNat_eq hd)] at h
  cases h

/-- The converse of `decodeWord_of_unsupportedClass`: an arm that answers nothing is that of a listed class. -/
theorem unsupportedClass_of_decodeWord {w : Word} (h : decodeWord w = none) : UnsupportedClass w := by
  have hd4 : (fieldD4 w).toNat = w.toNat % 16 := by rw [fieldD4_toNat, Nat.div_one]
  have hnn : (fieldNn w).toNat = w.toNat % 256 := by rw [fieldNn_toNat, Nat.div_one]
  unfold decodeWord at h
  rw [fieldD1_toNat_eq_div] at h
  split at h
  case h_1 hd1 =>
    obtain ⟨hnop, hcls, hret⟩ := ne_of_decode0_eq_none h
    exact .inl ⟨hd1, fun e => hnop (BitVec.eq_of_toNat_eq e), fun e => hcls (BitVec.eq_of_toNat_eq e),
      fun e => hret (BitVec.eq_of_toNat_eq e)⟩
  case h_6 hd1 => exact .inr (.inl ⟨hd1, hd4 ▸ ne_zero_of_ite_eq_none h⟩)
  case h_9 hd1 => exact .inr (.inr (.inl ⟨hd1, hd4 ▸ le_of_decode8_eq_none h⟩))
  case h_10 hd1 => exact .inr (.inr (.inr (.inl ⟨hd1, hd4 ▸ ne_zero_of_ite_eq_none h⟩)))
  case h_15 hd1 => exact .inr (.inr (.inr (.inr (.inl ⟨hd1, hnn ▸ not_mem_of_decodeE_eq_none h⟩))))
  case h_16 hd1 => exact .inr (.inr (.inr (.inr (.inr ⟨hd1, hnn ▸ not_mem_of_decodeF_eq_none h⟩))))
  case h_17 => have := w.isLt; simp only [imp_false] at *; omega
  all_goals cases h

/-- Settles O5: the two directions, arm by arm of the decoder. -/
theorem undecodedWordsAreTheListedClasses : Obligations.UndecodedWordsAreTheListedClasses :=
  fun _ => ⟨unsupportedClass_of_decodeWord, decodeWord_of_unsupportedClass⟩

end Sys2Proof.Machine
end

section
/-! SUPPORT. The frame of every update that the 35 instructions use, the frame of every instruction, and the statement of
what each may write (10_state.md R15 to R25, 20_memory.md R33). -/

namespace Sys2Proof.Machine

/-! ### Frames in general -/

theorem OnlyChanges.refl (s : State) : OnlyChanges [] s s := by
  refine ⟨fun p _ => ?_, rfl⟩
  cases p with
  | mem | regs | key => exact fun _ => rfl
  | fb => exact fun _ _ => rfl
  | stack => exact ⟨rfl, rfl⟩
  | latch => exact ⟨rfl, rfl, rfl⟩
  | i | pc | dt | st | draws => rfl

/-- A frame may name more parts than were changed. -/
theorem OnlyChanges.mono {ps qs : List Part} {s t : State} (h : OnlyChanges ps s t) (hsub : ps ⊆ qs) :
    OnlyChanges qs s t := by
  obtain ⟨hparts, hparams⟩ := h
  exact ⟨fun p hp => hparts p fun hmem => hp (hsub hmem), hparams⟩

theorem OnlyChanges.samePart {ps : List Part} {s t : State} (h : OnlyChanges ps s t) {p : Part} (hp : p ∉ ps) :
    SamePart s t p := h.1 p hp

theorem OnlyChanges.onlyRegs {ps : List Part} {s t : State} (h : OnlyChanges ps s t) (hp : .regs ∉ ps)
    (w : RegIdx → Prop) : OnlyRegs w s t := fun r _ => h.samePart hp r

/-! ### Frames of the updates -/

theorem setMem_onlyChanges (s : State) (m : Memory) : OnlyChanges [.mem] s (s.setMem m) :=
  ⟨fun p hp => by cases p <;> simp [SamePart] at hp ⊢, s.setMem_params m⟩

theorem storeRegs_onlyChanges (s : State) (n : Nat) : OnlyChanges [.mem] s (s.storeRegs n) := by
  rw [s.storeRegs_eq n]; exact setMem_onlyChanges s _

theorem storeDigits_onlyChanges (s : State) (b : Byte) : OnlyChanges [.mem] s (s.storeDigits b) := by
  rw [s.storeDigits_eq b]; exact setMem_onlyChanges s _

theorem loadRegs_onlyChanges (s : State) (n : Nat) : OnlyChanges [.regs] s (s.loadRegs n) := by
  induction n with
  | zero => exact (OnlyChanges.refl s).mono (List.nil_subset _)
  | succ k ih => exact (ih.trans (setV_onlyChanges _ _ _)).mono (by decide)

theorem loadRegs_onlyRegs (s : State) (x : RegIdx) : OnlyRegs (· ≤ x) s (s.loadRegs (x.val + 1)) := by
  intro r hr
  rw [s.getV_loadRegs (show x.val + 1 ≤ 16 from x.isLt), if_neg (by rw [Fin.not_le] at hr; omega)]

theorem setResultFlag_onlyChanges (s : State) (x : RegIdx) (b : Byte) (c : Bool) :
    OnlyChanges [.regs] s (s.setResultFlag x b c) :=
  ((setV_onlyChanges s x b).trans (setV_onlyChanges _ VF (flagByte c))).mono (by decide)

theorem setResultFlag_onlyRegs (s : State) (x : RegIdx) (b : Byte) (c : Bool) :
    OnlyRegs (fun r => r = x ∨ r = VF) s (s.setResultFlag x b c) := by
  intro r hr
  rw [not_or] at hr
  rw [s.getV_setResultFlag, if_neg hr.2, if_neg hr.1]

theorem countDraw_onlyChanges (s : State) : OnlyChanges [.draws] s s.countDraw :=
  ⟨fun p hp => by cases p <;> simp [SamePart] at hp ⊢, s.countDraw_params⟩

theorem maskDraw_onlyChanges (s : State) (x : RegIdx) (nn r : Byte) :
    OnlyChanges [.regs, .draws] s (s.countDraw.maskDraw x nn r) :=
  ((countDraw_onlyChanges s).trans (setV_onlyChanges _ x _)).mono (by decide)

theorem drawn_onlyChanges (s : State) (f : Framebuffer) (c : Bool) :
    OnlyChanges [.regs, .fb] s ((s.setFb f).setFlag c) :=
  ((setFb_onlyChanges s f).trans (setV_onlyChanges _ VF _)).mono (by decide)

theorem armLatch_onlyChanges (s : State) (x : RegIdx) : OnlyChanges [.latch] s (s.armLatch x) :=
  ⟨fun p hp => by cases p <;> simp [SamePart] at hp ⊢, s.armLatch_params x⟩

theorem clearLatch_onlyChanges (s : State) : OnlyChanges [.latch] s s.clearLatch :=
  ⟨fun p hp => by cases p <;> simp [SamePart] at hp ⊢, s.clearLatch_params⟩

theorem recordKey_onlyChanges (s : State) (k : KeyIdx) : OnlyChanges [.latch] s (s.recordKey k) :=
  ⟨fun p hp => by cases p <;> simp [SamePart] at hp ⊢, s.recordKey_params k⟩

theorem setKey_onlyChanges (s : State) (k : KeyIdx) (p : Bool) : OnlyChanges [.key] s (s.setKey k p) :=
  ⟨fun q hq => by cases q <;> simp [SamePart] at hq ⊢, s.setKey_params k p⟩

theorem retreat_onlyChanges (s : State) : OnlyChanges [.pc] s s.retreat := setPc_onlyChanges s _

theorem advance_onlyChanges (s : State) : OnlyChanges [.pc] s s.advance := setPc_onlyChanges s _

theorem armed_onlyChanges (s : State) (x : RegIdx) : OnlyChanges [.pc, .latch] s (s.armLatch x).retreat :=
  ((armLatch_onlyChanges s x).trans (retreat_onlyChanges _)).mono (by decide)

theorem resolveWait_onlyChanges (s : State) (x : RegIdx) (k : KeyIdx) :
    OnlyChanges [.regs, .latch] s (s.resolveWait x k) :=
  (setV_onlyChanges s x (keyByte k)).trans (clearLatch_onlyChanges _)

theorem resolveWait_onlyRegs (s : State) (x : RegIdx) (k : KeyIdx) : OnlyRegs (· = x) s (s.resolveWait x k) :=
  setV_onlyRegs s x (keyByte k)

/-! ### Frames of the instructions that can answer in more than one way -/

theorem execCall_onlyChanges {nnn : Addr12} {s t : State} (h : exec (.call nnn) s = .next t) :
    OnlyChanges [.pc, .stack] s t := by
  rcases execCall_cases nnn s with ⟨-, hfault⟩ | ⟨_, hnext⟩
  · cases hfault.symm.trans h
  · cases hnext.symm.trans h
    exact setStackPc_onlyChanges s _ _ _

theorem execRet_onlyChanges {s t : State} (h : exec .ret s = .next t) : OnlyChanges [.pc, .stack] s t := by
  rcases execRet_cases s with ⟨-, hfault⟩ | ⟨_, hnext⟩
  · cases hfault.symm.trans h
  · cases hnext.symm.trans h
    exact setStackPc_onlyChanges s _ _ _

theorem execWaitKey_onlyChanges {x : RegIdx} {s t : State} (h : exec (.waitKey x) s = .next t) :
    OnlyChanges [.regs, .pc, .latch] s t := by
  rcases execWaitKey_cases x s with ⟨k, -, -, hnext⟩ | ⟨-, -, hnext⟩ | ⟨-, hnext⟩ <;> cases hnext.symm.trans h
  · exact (resolveWait_onlyChanges s x k).mono (by decide)
  · exact (retreat_onlyChanges s).mono (by decide)
  · exact (armed_onlyChanges s x).mono (by decide)

/-- WAIT_KEY writes no register until a key is recorded. -/
theorem execWaitKey_sameRegs {x : RegIdx} {s t : State} (h : exec (.waitKey x) s = .next t)
    (hwait : s.waitActive = false ∨ s.waitKey = none) : SamePart s t .regs := by
  rcases execWaitKey_cases x s with ⟨k, hactive, hkey, -⟩ | ⟨-, -, hnext⟩ | ⟨-, hnext⟩
  · rw [hactive, hkey] at hwait
    rcases hwait with hwait | hwait <;> cases hwait
  · cases hnext.symm.trans h
    exact (retreat_onlyChanges s).samePart (by decide)
  · cases hnext.symm.trans h
    exact (armed_onlyChanges s x).samePart (by decide)

theorem execWaitKey_onlyRegs {x : RegIdx} {s t : State} (h : exec (.waitKey x) s = .next t) :
    OnlyRegs (· = x) s t := by
  rcases execWaitKey_cases x s with ⟨k, -, -, hnext⟩ | ⟨-, hkey, -⟩ | ⟨hidle, -⟩
  · cases hnext.symm.trans h
    exact resolveWait_onlyRegs s x k
  · exact fun r _ => execWaitKey_sameRegs h (.inr hkey) r
  · exact fun r _ => execWaitKey_sameRegs h (.inl hidle) r

/-! ### Frames of all instructions -/

/-- An instruction changes only the parts that the spec's tables give it. -/
theorem exec_onlyChanges {i : Instr} {s t : State} (h : exec i s = .next t) : OnlyChanges (partsOf i) s t := by
  cases i with
  | ret => exact execRet_onlyChanges h
  | call nnn => exact execCall_onlyChanges h
  | waitKey x => exact execWaitKey_onlyChanges h
  | nop => cases h; exact OnlyChanges.refl s
  | cls => cases h; exact setFb_onlyChanges s _
  | jmp | jmpV0 => cases h; exact setPc_onlyChanges s _
  | skipEqNn | skipNeqNn | skipEqVy | skipNeqVy | skipKey | skipNkey => cases h; exact skipIf_onlyChanges s _
  | setNn | addNn | setVy | or | and | xor | getDt => cases h; exact setV_onlyChanges s _ _
  | addVy | subVy | rsubVy | rshift | lshift => cases h; exact setResultFlag_onlyChanges s _ _ _
  | rand => cases h; exact maskDraw_onlyChanges s _ _ _
  | draw => cases h; exact drawn_onlyChanges s _ _
  | setDt => cases h; exact setDt_onlyChanges s _
  | setSt => cases h; exact setSt_onlyChanges s _
  | setI | addI | setIFont => cases h; exact setI_onlyChanges s _
  | bcd => cases h; exact storeDigits_onlyChanges s _
  | store => cases h; exact storeRegs_onlyChanges s _
  | load => cases h; exact loadRegs_onlyChanges s _

/-- An instruction changes only the registers of the table in 10_state.md R15. -/
theorem exec_onlyRegs {i : Instr} {s t : State} (h : exec i s = .next t) : OnlyRegs (regsOf i) s t := by
  cases i with
  | setNn | addNn | setVy | or | and | xor | getDt => cases h; exact setV_onlyRegs s _ _
  | rand => cases h; exact setV_onlyRegs s.countDraw _ _
  | waitKey => exact execWaitKey_onlyRegs h
  | addVy | subVy | rsubVy | rshift | lshift => cases h; exact setResultFlag_onlyRegs s _ _ _
  | draw => cases h; exact setV_onlyRegs (s.setFb _) VF _
  | load x => cases h; exact loadRegs_onlyRegs s x
  | nop | cls | ret | call | jmp | jmpV0 | skipEqNn | skipNeqNn | skipEqVy | skipNeqVy | skipKey | skipNkey | setDt
  | setSt | setI | addI | setIFont | bcd | store => exact (exec_onlyChanges h).onlyRegs (by simp [partsOf]) _

/-- Settles O52: the frames of the 35 instructions, and that an unresolved WAIT_KEY writes no register. -/
theorem instructionsWriteOnlyWhatTheSpecLists : Obligations.InstructionsWriteOnlyWhatTheSpecLists := by
  refine fun i s t h => ⟨exec_onlyChanges h, exec_onlyRegs h, ?_⟩
  rintro x rfl hwait
  exact execWaitKey_sameRegs h hwait

end Sys2Proof.Machine
end

section
/-! SUPPORT. What `keypress` does, whether or not the press is recorded, and the statement of 40_tick_driver.md R54. -/

namespace Sys2Proof.Machine

theorem keyByte_toNat (k : KeyIdx) : (keyByte k).toNat = k.val :=
  Nat.mod_eq_of_lt (Nat.lt_trans k.isLt (by decide))

theorem recordsPress_iff (s : State) (k : KeyIdx) (p : Bool) :
    s.recordsPress k p = true ↔ p = true ∧ s.getKey k = false ∧ s.waitActive = true ∧ s.waitKey = none := by
  simp [State.recordsPress, and_assoc]

/-- Everything `pressKey` can do. -/
theorem pressKey_cases (s : State) (k : KeyIdx) (p : Bool) :
    ((p = true ∧ s.getKey k = false ∧ s.waitActive = true ∧ s.waitKey = none) ∧
      s.pressKey k p = (s.recordKey k).setKey k p) ∨
    (¬ (p = true ∧ s.getKey k = false ∧ s.waitActive = true ∧ s.waitKey = none) ∧ s.pressKey k p = s.setKey k p) := by
  rw [← recordsPress_iff]
  by_cases h : s.recordsPress k p = true
  · exact .inl ⟨h, by rw [State.pressKey, if_pos h]⟩
  · exact .inr ⟨h, by rw [State.pressKey, if_neg h]⟩

theorem keypress_keyByte (s : State) (k : KeyIdx) (p : Bool) : s.keypress (keyByte k) p = s.pressKey k p := by
  have hk : (keyByte k).toNat < 16 := by rw [keyByte_toNat]; exact k.isLt
  rw [State.keypress, dif_pos hk]
  congr 1
  exact Fin.ext (keyByte_toNat k)

theorem keypress_of_ge (s : State) {index : Byte} (p : Bool) (h : 16 ≤ index.toNat) : s.keypress index p = s := by
  rw [State.keypress, dif_neg (Nat.not_lt.mpr h)]

/-- Every `keypress` does nothing or presses some key. -/
theorem keypress_cases (s : State) (index : Byte) (p : Bool) :
    s.keypress index p = s ∨ ∃ k, s.keypress index p = s.pressKey k p := by
  by_cases h : index.toNat < 16
  · exact .inr ⟨_, dif_pos h⟩
  · exact .inl (keypress_of_ge s p (Nat.not_lt.mp h))

theorem pressKey_onlyChanges (s : State) (k : KeyIdx) (p : Bool) : OnlyChanges [.key, .latch] s (s.pressKey k p) := by
  rcases pressKey_cases s k p with ⟨-, e⟩ | ⟨-, e⟩ <;> rw [e]
  · exact ((recordKey_onlyChanges s k).trans (setKey_onlyChanges _ k p)).mono (by decide)
  · exact (setKey_onlyChanges s k p).mono (by decide)

theorem getKey_pressKey (s : State) (k : KeyIdx) (p : Bool) (j : KeyIdx) :
    (s.pressKey k p).getKey j = if j = k then p else s.getKey j := by
  rcases pressKey_cases s k p with ⟨-, e⟩ | ⟨-, e⟩ <;> rw [e, State.getKey_setKey]
  rfl

theorem pressKey_waitActive (s : State) (k : KeyIdx) (p : Bool) : (s.pressKey k p).waitActive = s.waitActive := by
  rcases pressKey_cases s k p with ⟨-, e⟩ | ⟨-, e⟩ <;> rw [e] <;> rfl

theorem pressKey_waitReg (s : State) (k : KeyIdx) (p : Bool) : (s.pressKey k p).waitReg = s.waitReg := by
  rcases pressKey_cases s k p with ⟨-, e⟩ | ⟨-, e⟩ <;> rw [e] <;> rfl

theorem pressKey_waitKey_of_recorded (s : State) (k : KeyIdx) (p : Bool)
    (h : p = true ∧ s.getKey k = false ∧ s.waitActive = true ∧ s.waitKey = none) :
    (s.pressKey k p).waitKey = some k := by
  rcases pressKey_cases s k p with ⟨-, e⟩ | ⟨hn, -⟩
  · rw [e]; rfl
  · exact absurd h hn

theorem pressKey_waitKey_of_not_recorded (s : State) (k : KeyIdx) (p : Bool)
    (h : ¬ (p = true ∧ s.getKey k = false ∧ s.waitActive = true ∧ s.waitKey = none)) :
    (s.pressKey k p).waitKey = s.waitKey := by
  rcases pressKey_cases s k p with ⟨hy, -⟩ | ⟨-, e⟩
  · exact absurd hy h
  · rw [e]; rfl

/-- Settles O46: an index below 16 is some key's byte, and the press is recorded or not. -/
theorem keypressSetsTheKeyAndRecordsThePress : Obligations.KeypressSetsTheKeyAndRecordsThePress := by
  refine ⟨fun s k p => ⟨s.pressKey k p, ?_, ?_, fun j hj => ?_, pressKey_waitKey_of_recorded s k p,
    pressKey_waitKey_of_not_recorded s k p, pressKey_waitActive s k p, pressKey_waitReg s k p,
    pressKey_onlyChanges s k p⟩, fun s index p h => ?_⟩
  · rw [command, keypress_keyByte]
  · rw [getKey_pressKey, if_pos rfl]
  · rw [getKey_pressKey, if_neg hj]
  · rw [command, keypress_of_ge s p h]

end Sys2Proof.Machine
end

section
/-! SUPPORT. Every step and every command keeps the invariant of 10_state.md R27, and the parked states of
40_tick_driver.md R57 stay parked. -/

namespace Sys2Proof.Machine

/-! ### Memory stays in canonical form -/

/-- An instruction that the spec's tables give no memory leaves the list of cells itself. -/
theorem exec_mem_eq {i : Instr} {s t : State} (h : exec i s = .next t) (hi : .mem ∉ partsOf i) : t.mem = s.mem := by
  cases i with
  | bcd | store => simp [partsOf] at hi
  | call nnn =>
    rcases execCall_cases nnn s with ⟨-, hfault⟩ | ⟨_, hnext⟩
    · cases hfault.symm.trans h
    · cases hnext.symm.trans h; rfl
  | ret =>
    rcases execRet_cases s with ⟨-, hfault⟩ | ⟨_, hnext⟩
    · cases hfault.symm.trans h
    · cases hnext.symm.trans h; rfl
  | waitKey x =>
    rcases execWaitKey_cases x s with ⟨k, -, -, hnext⟩ | ⟨-, -, hnext⟩ | ⟨-, hnext⟩ <;> cases hnext.symm.trans h <;> rfl
  | skipEqNn | skipNeqNn | skipEqVy | skipNeqVy | skipKey | skipNkey => cases h; rw [s.skipIf_eq]; rfl
  | load => cases h; rw [s.loadRegs_eq]
  | nop | cls | jmp | jmpV0 | setNn | addNn | setVy | or | and | xor | addVy | subVy | rsubVy | rshift | lshift | rand
  | draw | getDt | setDt | setSt | setI | addI | setIFont => cases h; rfl

theorem exec_mem_wf {i : Instr} {s t : State} (hs : s.mem.wf = true) (h : exec i s = .next t) : t.mem.wf = true := by
  by_cases hi : .mem ∈ partsOf i
  · cases i with
    | bcd => cases h; exact s.wf_storeDigits hs _
    | store => cases h; exact s.wf_storeRegs hs _
    | _ => simp [partsOf] at hi
  · rw [exec_mem_eq h hi]; exact hs

/-! ### The latch agrees with the program -/

theorem eq_waitKey_of_latch_mem {i : Instr} (h : .latch ∈ partsOf i) : ∃ x, i = .waitKey x := by
  cases i with
  | waitKey x => exact ⟨x, rfl⟩
  | _ => simp [partsOf] at h

/-- A latch that is clear agrees with every program. -/
theorem latchCoherent_of_clear {s : State} (hactive : s.waitActive = false) (hreg : s.waitReg = 0)
    (hkey : s.waitKey = none) : s.LatchCoherent :=
  ⟨fun h => absurd (hactive.symm.trans h) (by decide), fun _ => ⟨hreg, hkey⟩⟩

/-- A latch that is armed by the word at pc agrees with the program. -/
theorem latchCoherent_of_armed {s : State} (hactive : s.waitActive = true)
    (hdec : decodeWord s.fetch = some (.waitKey s.waitReg)) : s.LatchCoherent :=
  ⟨fun _ => hdec, fun h => absurd (hactive.symm.trans h) (by decide)⟩

/-- Arming undoes the default advance and changes nothing but the latch. -/
theorem armLatch_advance_retreat (s : State) (x : RegIdx) : (s.advance.armLatch x).retreat = s.armLatch x :=
  congrArg (fun t => State.armLatch t x) s.retreat_advance

/-- WAIT_KEY, fetched at pc, clears the latch, leaves everything, or arms the latch at the same pc. -/
theorem latchCoherent_of_waitKey {s t : State} {x : RegIdx} (hs : s.LatchCoherent)
    (hdec : decodeWord s.fetch = some (.waitKey x)) (h : exec (.waitKey x) s.advance = .next t) :
    t.LatchCoherent := by
  rcases execWaitKey_cases x s.advance with ⟨k, -, -, hnext⟩ | ⟨-, -, hnext⟩ | ⟨-, hnext⟩ <;>
    cases hnext.symm.trans h
  · exact latchCoherent_of_clear rfl rfl rfl
  · rw [s.retreat_advance]; exact hs
  · rw [armLatch_advance_retreat]; exact latchCoherent_of_armed rfl hdec

/-- An instruction other than WAIT_KEY runs only with the latch clear, and leaves it clear. -/
theorem latchCoherent_of_not_waitKey {s t : State} {i : Instr} (hs : s.LatchCoherent)
    (hdec : decodeWord s.fetch = some i) (hi : ∀ x, i ≠ .waitKey x) (h : exec i s.advance = .next t) :
    t.LatchCoherent := by
  obtain ⟨harmed, hclear⟩ := hs
  have hidle : s.waitActive = false := by
    refine Bool.eq_false_iff.mpr fun hactive => hi s.waitReg ?_
    exact Option.some.inj (hdec.symm.trans (harmed hactive))
  obtain ⟨hreg, hkey⟩ := hclear hidle
  have hlatch : .latch ∉ partsOf i := fun hmem => (eq_waitKey_of_latch_mem hmem).elim hi
  obtain ⟨hactive', hreg', hkey'⟩ := (exec_onlyChanges h).samePart hlatch
  exact latchCoherent_of_clear (hactive'.trans hidle) (hreg'.trans hreg) (hkey'.trans hkey)

/-- A step that answers a next state ran an instruction. -/
theorem exec_of_step_next {s t : State} (h : step s = .next t) :
    ∃ i, decodeWord s.fetch = some i ∧ exec i s.advance = .next t := by
  rcases step_cases s with ⟨-, hfault⟩ | ⟨i, hdec, hexec⟩
  · cases hfault.symm.trans h
  · exact ⟨i, hdec, hexec.symm.trans h⟩

/-- Settles O56: memory by the writes of BCD and STORE, the latch by whether the instruction is a WAIT_KEY. -/
theorem stepKeepsTheInvariant : Obligations.StepKeepsTheInvariant := by
  rintro s t ⟨hwf, hlatch⟩ hstep
  obtain ⟨i, hdec, hexec⟩ := exec_of_step_next hstep
  refine ⟨exec_mem_wf (show s.advance.mem.wf = true from hwf) hexec, ?_⟩
  by_cases hi : ∃ x, i = .waitKey x
  · obtain ⟨x, rfl⟩ := hi
    exact latchCoherent_of_waitKey hlatch hdec hexec
  · exact latchCoherent_of_not_waitKey hlatch hdec (not_exists.mp hi) hexec

/-! ### Commands -/

/-- A press leaves memory and pc, and records a key only in an armed latch. -/
theorem pressKey_inv {s : State} (hs : s.Inv) (k : KeyIdx) (p : Bool) : (s.pressKey k p).Inv := by
  obtain ⟨hwf, harmed, hclear⟩ := hs
  rcases pressKey_cases s k p with ⟨⟨-, -, hactive, -⟩, e⟩ | ⟨-, e⟩ <;> rw [e]
  · exact ⟨hwf, latchCoherent_of_armed hactive (harmed hactive)⟩
  · exact ⟨hwf, harmed, hclear⟩

theorem loadRom_inv {s t : State} {rom : List Byte} (hs : s.Inv) (h : s.loadRom rom = .ok t) : t.Inv := by
  unfold State.loadRom at h
  split at h <;> cases h
  exact ⟨s.wf_copyRom hs.memWf rom, latchCoherent_of_clear rfl rfl rfl⟩

theorem command_inv (c : Command) {s : State} (hs : s.Inv) : (command c s).1.Inv := by
  cases c with
  | reset => exact ⟨s.wf_resetCommand, latchCoherent_of_clear rfl rfl rfl⟩
  | load rom =>
    rw [command]
    cases hload : s.loadRom rom with
    | ok t => exact loadRom_inv hs hload
    | error e => exact hs
  | tickCpu =>
    rw [command]
    cases hstep : step s with
    | next t => exact stepKeepsTheInvariant s t hs hstep
    | fault e => exact hs
    | refused r => exact hs
  | tickFrame => exact ⟨hs.memWf, hs.latch⟩
  | keypress index p =>
    rw [command]
    rcases keypress_cases s index p with e | ⟨k, e⟩ <;> rw [e]
    · exact hs
    · exact pressKey_inv hs k p
  | getDisplay => exact hs

/-- Settles O57: by induction on the commands, each of which keeps the invariant. -/
theorem commandSequencesKeepTheInvariant : Obligations.CommandSequencesKeepTheInvariant := by
  intro cs
  induction cs with
  | nil => exact fun _ hs => hs
  | cons c cs ih => exact fun s hs => ih _ (command_inv c hs)

/-- Settles O55: nothing is listed in memory and the latch is clear. -/
theorem resetStateMeetsTheInvariant : Obligations.ResetStateMeetsTheInvariant :=
  ⟨rfl, latchCoherent_of_clear rfl rfl rfl⟩

/-! ### The three answers of WAIT_KEY, by the state of the latch -/

theorem exec_waitKey_of_recorded (s : State) {k : KeyIdx} (x : RegIdx) (hactive : s.waitActive = true)
    (hkey : s.waitKey = some k) : exec (.waitKey x) s = .next (s.resolveWait x k) := by
  rcases execWaitKey_cases x s with ⟨k', -, hkey', hnext⟩ | ⟨-, hkey', -⟩ | ⟨hidle, -⟩
  · cases hkey.symm.trans hkey'; exact hnext
  · cases hkey.symm.trans hkey'
  · cases hactive.symm.trans hidle

theorem exec_waitKey_of_waiting (s : State) (x : RegIdx) (hactive : s.waitActive = true) (hkey : s.waitKey = none) :
    exec (.waitKey x) s = .next s.retreat := by
  rcases execWaitKey_cases x s with ⟨k', -, hkey', -⟩ | ⟨-, -, hnext⟩ | ⟨hidle, -⟩
  · cases hkey.symm.trans hkey'
  · exact hnext
  · cases hactive.symm.trans hidle

theorem exec_waitKey_of_idle (s : State) (x : RegIdx) (hidle : s.waitActive = false) :
    exec (.waitKey x) s = .next (s.armLatch x).retreat := by
  rcases execWaitKey_cases x s with ⟨k', hactive, -, -⟩ | ⟨hactive, -, -⟩ | ⟨-, hnext⟩
  · cases hidle.symm.trans hactive
  · cases hidle.symm.trans hactive
  · exact hnext

/-! ### Parked states -/

theorem tickCpu_of_next {s t : State} (h : step s = .next t) : command .tickCpu s = (t, .ok) := by
  rw [command, h]; rfl

/-- A command that leaves the state does so any number of times, with the same answer. -/
theorem runCommands_replicate_of_fixed {c : Command} {s : State} {r : Response} (h : command c s = (s, r)) (n : Nat) :
    runCommands (List.replicate n c) s = (s, List.replicate n r) := by
  induction n with
  | zero => rfl
  | succ n ih => simp only [List.replicate_succ, runCommands, h, ih]

/-- A fetched WAIT_KEY that is armed with nothing recorded leaves the whole state. -/
theorem step_of_waiting {s : State} {x : RegIdx} (hdec : decodeWord s.fetch = some (.waitKey x))
    (hactive : s.waitActive = true) (hkey : s.waitKey = none) : step s = .next s := by
  calc step s = .next s.advance.retreat :=
        (step_of_decode hdec).trans (exec_waitKey_of_waiting s.advance x hactive hkey)
    _ = .next s := by rw [s.retreat_advance]

theorem step_of_parked {s : State} (hs : s.Inv) (h : s.Parked) : step s = .next s := by
  rcases h with ⟨nnn, hdec, hself⟩ | ⟨hactive, hkey⟩
  · obtain ⟨-, -, hjmp⟩ := jmpSetsPc
    exact hjmp s nnn hdec (by rw [← hself, target_toNat])
  · obtain ⟨harmed, -⟩ := hs.latch
    exact step_of_waiting (harmed hactive) hactive hkey

/-- Settles O58: one step leaves a parked state, so any number of them do. -/
theorem parkedStatesStayParked : Obligations.ParkedStatesStayParked :=
  fun _ n hs h => runCommands_replicate_of_fixed (tickCpu_of_next (step_of_parked hs h)) n

end Sys2Proof.Machine
end

section
/-! SUPPORT. The fetch and the step, everything an instruction can answer, and the whole-machine statements about one tick
(40_tick_driver.md R50, R51, R56; 60_exceptions.md R106; 10_state.md R18, R22, R24). -/

namespace Sys2Proof.Machine

/-! ### Fetch and step -/

/-- Settles O6: the two bytes are appended, and `eff` is the reduction modulo 4096. -/
theorem fetchJoinsTwoBytesBigEndian : Obligations.FetchJoinsTwoBytesBigEndian := by
  intro s
  calc s.fetch.toNat = (s.byteAt s.pc.toNat).toNat * 2 ^ 8 + (s.byteAt (s.pc.toNat + 1)).toNat := append_toNat _ _
    _ = 256 * (s.mem.read (s.pc.toNat % 4096)).toNat + (s.mem.read ((s.pc.toNat + 1) % 4096)).toNat := by
      rw [Nat.mul_comm]; rfl

/-- Settles O7: the definition of the step, and the frame of the default advance. -/
theorem stepRunsTheDecodedInstruction : Obligations.StepRunsTheDecodedInstruction :=
  fun s _ hdec => ⟨step_of_decode hdec, advance_pc_toNat s, advance_onlyChanges s⟩

/-- Settles O15: NOP's arm returns its state, so as a step it leaves the default advance. -/
theorem nopOnlyAdvances : Obligations.NopOnlyAdvances :=
  ⟨selects_nop, fun _ => rfl, fun _ hdec => step_of_decode hdec⟩

/-! ### A word placed at pc -/

theorem byteAt_setWord (s : State) (h : s.mem.wf = true) (a : Nat) (w : Word) (q : Nat) :
    (s.setWord a w).byteAt q =
      if eff q = eff (a + 1) then w.extractLsb' 0 8 else if eff q = eff a then w.extractLsb' 8 8 else s.byteAt q := by
  rw [State.setWord, State.byteAt_setByte _ (s.wf_setByte h _ _), s.byteAt_setByte h]

theorem eff_ne_eff_succ (a : Nat) : eff a ≠ eff (a + 1) := by
  simp only [eff, Config.memSize]; omega

theorem wordAt_setWord (s : State) (h : s.mem.wf = true) (a : Nat) (w : Word) : (s.setWord a w).wordAt a = w := by
  rw [State.wordAt, byteAt_setWord s h, byteAt_setWord s h, if_neg (eff_ne_eff_succ a), if_pos rfl, if_pos rfl,
    joinBytes_of_word]

theorem setWord_onlyChanges (s : State) (a : Nat) (w : Word) : OnlyChanges [.mem] s (s.setWord a w) :=
  ((setMem_onlyChanges s _).trans (setMem_onlyChanges _ _)).mono (by decide)

/-- The word's bytes, laid out as memory holds them, decode as the word does. -/
theorem decodeTableWord_eq (nbits w : Nat) : decodeTableWord nbits w = decodeWord (tableWord nbits w) := by
  simp only [decodeTableWord, wordBytes, decodeBytes, joinBytes_of_word]
  cases decodeWord (tableWord nbits w) <;> rfl

/-- Settles O8: the fetch reads the two bytes back, whether or not pc + 1 wraps. -/
theorem placedWordIsTheOneThatRuns : Obligations.PlacedWordIsTheOneThatRuns := by
  intro s nbits w i hwf hdec
  rw [decodeTableWord_eq] at hdec
  have hfetch : (s.withFetchWord nbits w).fetch = tableWord nbits w := wordAt_setWord s hwf _ _
  refine ⟨step_of_decode (hfetch ▸ hdec), setWord_onlyChanges s _ _, fun a hhigh hlow => ?_⟩
  rw [State.withFetchWord, byteAt_setWord s hwf, if_neg hlow, if_neg hhigh]

/-! ### What an instruction can answer -/

/-- Everything `exec` can answer: a next state, or one of the two errors of the stack. -/
theorem exec_cases (i : Instr) (s : State) :
    (∃ t, exec i s = .next t) ∨
    (∃ nnn, i = .call nnn ∧ s.sp.val = 16 ∧ exec i s = .fault .stackOverflow) ∨
    (i = .ret ∧ s.sp.val = 0 ∧ exec i s = .fault .stackUnderflow) := by
  cases i with
  | call nnn =>
    rcases execCall_cases nnn s with ⟨hfull, hfault⟩ | ⟨_, hnext⟩
    · exact .inr (.inl ⟨nnn, rfl, hfull, hfault⟩)
    · exact .inl ⟨_, hnext⟩
  | ret =>
    rcases execRet_cases s with ⟨hempty, hfault⟩ | ⟨_, hnext⟩
    · exact .inr (.inr ⟨rfl, hempty, hfault⟩)
    · exact .inl ⟨_, hnext⟩
  | waitKey x =>
    rcases execWaitKey_cases x s with ⟨_, -, -, hnext⟩ | ⟨-, -, hnext⟩ | ⟨-, hnext⟩ <;> exact .inl ⟨_, hnext⟩
  | _ => exact .inl ⟨_, rfl⟩

theorem exec_fault_iff (i : Instr) (s : State) (e : Fault) :
    exec i s = .fault e ↔
      (∃ nnn, i = .call nnn ∧ s.sp.val = 16 ∧ e = .stackOverflow) ∨ (i = .ret ∧ s.sp.val = 0 ∧ e = .stackUnderflow) := by
  constructor
  · intro h
    rcases exec_cases i s with ⟨t, hnext⟩ | ⟨nnn, hi, hfull, hfault⟩ | ⟨hi, hempty, hfault⟩
    · cases hnext.symm.trans h
    · cases hfault.symm.trans h; exact .inl ⟨nnn, hi, hfull, rfl⟩
    · cases hfault.symm.trans h; exact .inr ⟨hi, hempty, rfl⟩
  · rintro (⟨nnn, rfl, hfull, rfl⟩ | ⟨rfl, hempty, rfl⟩)
    · exact exec_call_of_full s nnn hfull
    · exact exec_ret_of_empty s hempty

theorem exec_ne_refused (i : Instr) (s : State) (r : Refusal) : exec i s ≠ .refused r := by
  intro h
  rcases exec_cases i s with ⟨t, hnext⟩ | ⟨_, -, -, hfault⟩ | ⟨-, -, hfault⟩
  · cases hnext.symm.trans h
  · cases hfault.symm.trans h
  · cases hfault.symm.trans h

theorem step_ne_refused (s : State) (r : Refusal) : step s ≠ .refused r := by
  rcases step_cases s with ⟨-, hfault⟩ | ⟨i, -, hexec⟩
  · rw [hfault]; rintro ⟨⟩
  · rw [hexec]; exact exec_ne_refused i s.advance r

/-- Settles O11: by everything `exec` and `step` can answer. -/
theorem onlyCallAndRetRaise : Obligations.OnlyCallAndRetRaise := ⟨exec_fault_iff, exec_ne_refused, step_ne_refused⟩

/-- Settles O10: the word decodes, and the two errors of `exec` are excluded by the premises. -/
theorem supportedWordsExecute : Obligations.SupportedWordsExecute := by
  intro s hsupported hcall hret
  obtain ⟨i, hdec⟩ := decodeWord_of_supportedWord hsupported
  rcases exec_cases i s.advance with ⟨t, hnext⟩ | ⟨nnn, rfl, hfull, -⟩ | ⟨rfl, hempty, -⟩
  · exact ⟨t, (step_of_decode hdec).trans hnext⟩
  · exact absurd hfull (hcall nnn hdec)
  · exact absurd hempty (hret hdec)

/-- A command that answers an error changes nothing. -/
theorem command_of_err {c : Command} {s : State} {e : Fault} (h : (command c s).2 = .err e) :
    command c s = (s, .err e) := by
  refine Prod.ext ?_ h
  cases c with
  | tickCpu => exact afterTick_fst_of_err s (step s) e h
  | load rom =>
    rw [command] at h ⊢
    cases hload : s.loadRom rom with
    | ok t => rw [hload] at h; cases h
    | error e' => rfl
  | reset | tickFrame | keypress | getDisplay => cases h

/-- Settles O14: the state is fixed by the command, so repeating it repeats the answer. -/
theorem errorsChangeNothingAndRepeat : Obligations.ErrorsChangeNothingAndRepeat := by
  intro c s e h
  have hfixed := command_of_err h
  exact ⟨congrArg Prod.fst hfixed, runCommands_replicate_of_fixed hfixed⟩

/-! ### What a tick leaves -/

theorem key_not_mem_partsOf (i : Instr) : .key ∉ partsOf i := by cases i <;> simp [partsOf]

theorem eq_setDt_of_dt_mem {i : Instr} (h : .dt ∈ partsOf i) : ∃ x, i = .setDt x := by
  cases i with
  | setDt x => exact ⟨x, rfl⟩
  | _ => simp [partsOf] at h

theorem eq_setSt_of_st_mem {i : Instr} (h : .st ∈ partsOf i) : ∃ x, i = .setSt x := by
  cases i with
  | setSt x => exact ⟨x, rfl⟩
  | _ => simp [partsOf] at h

/-- Settles O53: by the frame of the instruction that runs; a timer is written by its own instruction alone. -/
theorem ticksLeaveKeysAndTimers : Obligations.TicksLeaveKeysAndTimers := by
  intro s t hstep
  obtain ⟨i, hdec, hexec⟩ := exec_of_step_next hstep
  have hframe : OnlyChanges (partsOf i) s.advance t := exec_onlyChanges hexec
  refine ⟨hframe.samePart (key_not_mem_partsOf i), hframe.2, fun hdt => ?_, fun hst => ?_⟩
  · obtain ⟨x, rfl⟩ := eq_setDt_of_dt_mem (of_not_not fun hmem => hdt (hframe.samePart hmem))
    cases hexec; exact ⟨x, hdec, rfl⟩
  · obtain ⟨x, rfl⟩ := eq_setSt_of_st_mem (of_not_not fun hmem => hst (hframe.samePart hmem))
    cases hexec; exact ⟨x, hdec, rfl⟩

theorem skipIf_advance_pc (s : State) (c : Bool) :
    (s.advance.skipIf c).pc = s.pc + 2 ∨ (s.advance.skipIf c).pc = s.pc + 4 := by
  cases c with
  | false => exact .inl rfl
  | true => exact .inr (BitVec.add_assoc s.pc 2 2)

/-- Settles O54: the frame of the instruction, then the skips and WAIT_KEY by what they do to pc. -/
theorem pcAdvancesByTwoUnlessOverridden : Obligations.PcAdvancesByTwoUnlessOverridden := by
  intro s t i hdec hstep
  have hexec : exec i s.advance = .next t := (step_of_decode hdec).symm.trans hstep
  refine ⟨fun hpc => (exec_onlyChanges hexec).samePart hpc, ?_, ?_⟩
  · rintro (⟨x, nn, rfl | rfl⟩ | ⟨x, y, rfl | rfl⟩ | ⟨x, rfl | rfl⟩) <;> cases hexec <;> exact skipIf_advance_pc s _
  · rintro ⟨x, rfl⟩
    rcases execWaitKey_cases x s.advance with ⟨k, -, -, hnext⟩ | ⟨-, -, hnext⟩ | ⟨-, hnext⟩ <;>
      cases hnext.symm.trans hexec
    · exact .inr rfl
    · rw [s.retreat_advance]; exact .inl rfl
    · rw [armLatch_advance_retreat]; exact .inl rfl

/-! ### `sound_active` -/

theorem soundActive_iff (s : State) : s.soundActive = true ↔ s.st.toNat ≠ 0 := by
  rw [State.soundActive, decide_eq_true_iff, ne_eq, ne_eq, BitVec.toNat_eq]; rfl

theorem soundActive_congr {s t : State} (h : t.st = s.st) : t.soundActive = s.soundActive := by
  rw [State.soundActive, h]; rfl

theorem soundActive_tickFrame (s : State) : s.tickFrame.soundActive = true ↔ 2 ≤ s.st.toNat := by
  rw [soundActive_iff, tickFrame_st, countDown_toNat]; omega

/-- Settles O51: `sound_active` is a function of ST, which a tick writes by SET_ST alone. -/
theorem soundActiveFollowsTheSoundTimer : Obligations.SoundActiveFollowsTheSoundTimer := by
  refine ⟨soundActive_iff, fun s h => ?_, fun s h => (soundActive_tickFrame s).mpr h, fun s => rfl, fun s hdec => ?_⟩
  · refine Bool.eq_false_iff.mpr fun hactive => ?_
    have := (soundActive_tickFrame s).mp hactive
    omega
  · rw [command]
    cases hstep : step s with
    | fault e => rfl
    | refused r => rfl
    | next t =>
      obtain ⟨-, -, -, hst⟩ := ticksLeaveKeysAndTimers s t hstep
      refine soundActive_congr (of_not_not fun hne => ?_)
      obtain ⟨x, hx, -⟩ := hst hne
      exact hdec x hx

end Sys2Proof.Machine
end

section
/-! SUPPORT. RET on an occupied stack, JMP_V0, and the statements of 41_control_flow.md R61 to R63. -/

namespace Sys2Proof.Machine

/-- RET with an entry on the stack, in terms of what the next state holds. -/
theorem exec_ret_of_occupied (s : State) (h : 0 < s.sp.val) :
    ∃ t, exec .ret s = .next t ∧ t.pc = s.stack[s.sp.val - 1]'(by have := s.sp.isLt; omega) ∧
      t.sp.val = s.sp.val - 1 ∧ t.stack = s.stack ∧ OnlyChanges [.pc, .stack] s t := by
  rcases execRet_cases s with ⟨hempty, -⟩ | ⟨_, hnext⟩
  · omega
  · exact ⟨_, hnext, rfl, rfl, rfl, setStackPc_onlyChanges s _ _ _⟩

/-- Settles O18: RET on an occupied stack. -/
theorem retPopsTheReturnAddress : Obligations.RetPopsTheReturnAddress := ⟨selects_ret, exec_ret_of_occupied⟩

/-- A CALL that answers a next state pushed pc. -/
theorem stack_of_exec_call {s t : State} {nnn : Addr12} (h : exec (.call nnn) s = .next t) :
    ∃ hroom : s.sp.val < 16, t.stack = s.stack.set s.sp.val s.pc hroom ∧ t.sp.val = s.sp.val + 1 := by
  rcases execCall_cases nnn s with ⟨-, hfault⟩ | ⟨hroom, hnext⟩
  · cases hfault.symm.trans h
  · cases hnext.symm.trans h
    exact ⟨hroom, rfl, rfl⟩

/-- Settles O19: the top entry is the pc that the CALL pushed, and SP goes up by one and down by one. -/
theorem retUndoesCall : Obligations.RetUndoesCall := by
  rintro s t u nnn hcall ⟨hstack, hsp⟩
  obtain ⟨hroom, htstack, htsp⟩ := stack_of_exec_call hcall
  have husp : u.sp.val = s.sp.val + 1 := by rw [hsp, htsp]
  obtain ⟨r, hret, hpc, hrsp, -, hframe⟩ := exec_ret_of_occupied u (by omega)
  refine ⟨r, hret, ?_, Fin.ext (by omega), hframe⟩
  have htop : u.sp.val - 1 = s.sp.val := by omega
  simp only [hpc, htop, hstack, htstack, Vector.getElem_set_self]

theorem zext16_toNat (b : Byte) : (zext16 b).toNat = b.toNat := BitVec.toNat_setWidth_of_le (by decide)

/-- Settles O20: the sum is at most 0x10FE, so the 16-bit addition does not wrap. -/
theorem jmpV0AddsVZero : Obligations.JmpV0AddsVZero := by
  refine ⟨selects_jmpV0, fun s nnn => ⟨_, rfl, ?_, setPc_onlyChanges s _⟩⟩
  rw [State.setPc_pc, BitVec.toNat_add, target_toNat, zext16_toNat]
  have := nnn.isLt; have := (s.getV 0).isLt; omega

end Sys2Proof.Machine
end

section
/-! SUPPORT. A result with its flag, the shifts by their source operand, and the statements of 42_alu.md R75 and R78 to
R83. -/

namespace Sys2Proof.Machine

/-- Settles O24: one `setV`, of the bitwise or of the two bytes. -/
theorem orWritesVxBitwise : Obligations.OrWritesVxBitwise :=
  ⟨selects_or, fun s x _ =>
    ⟨_, rfl, fun _ => by rw [s.getV_setV_self, BitVec.getLsbD_or], setV_onlyRegs s x _, setV_onlyChanges s x _⟩⟩

/-! ### A result and a flag -/

theorem getV_VF_setResultFlag (s : State) (x : RegIdx) (b : Byte) (c : Bool) :
    (s.setResultFlag x b c).getV VF = flagByte c := by
  rw [s.getV_setResultFlag, if_pos rfl]

theorem getV_setResultFlag_of_ne (s : State) {x : RegIdx} (hx : x ≠ VF) (b : Byte) (c : Bool) :
    (s.setResultFlag x b c).getV x = b := by
  rw [s.getV_setResultFlag, if_neg hx, if_pos rfl]

theorem flagByte_toNat (c : Bool) : (flagByte c).toNat = if c = true then 1 else 0 := by cases c <;> rfl

theorem carry_toNat (a b : Byte) : (flagByte (carry a b)).toNat = if a.toNat + b.toNat > 255 then 1 else 0 := by
  simp only [flagByte_toNat, carry, decide_eq_true_iff, gt_iff_lt]

theorem noBorrow_toNat (a b : Byte) : (flagByte (noBorrow a b)).toNat = if b.toNat ≤ a.toNat then 1 else 0 := by
  simp only [flagByte_toNat, noBorrow, decide_eq_true_iff]

theorem sub_toNat (a b : Byte) : (a - b).toNat = (a.toNat + 256 - b.toNat) % 256 := by
  rw [BitVec.toNat_sub]
  have := b.isLt; omega

/-- Settles O25: the byte sum wraps at 256 and the flag is the carry. -/
theorem addVyWritesSumAndCarry : Obligations.AddVyWritesSumAndCarry :=
  ⟨selects_addVy, fun s x _ =>
    ⟨_, rfl, by rw [getV_VF_setResultFlag, carry_toNat],
      fun hx => by rw [getV_setResultFlag_of_ne s hx, BitVec.toNat_add],
      setResultFlag_onlyRegs s x _ _, setResultFlag_onlyChanges s x _ _⟩⟩

/-- Settles O26: the byte difference wraps at 256 and the flag is the no-borrow bit. -/
theorem subtractionsWriteDifferenceAndNoBorrow : Obligations.SubtractionsWriteDifferenceAndNoBorrow :=
  ⟨⟨selects_subVy, fun s x _ =>
      ⟨_, rfl, by rw [getV_VF_setResultFlag, noBorrow_toNat],
        fun hx => by rw [getV_setResultFlag_of_ne s hx, sub_toNat],
        setResultFlag_onlyRegs s x _ _, setResultFlag_onlyChanges s x _ _⟩⟩,
    ⟨selects_rsubVy, fun s x _ =>
      ⟨_, rfl, by rw [getV_VF_setResultFlag, noBorrow_toNat],
        fun hx => by rw [getV_setResultFlag_of_ne s hx, sub_toNat],
        setResultFlag_onlyRegs s x _ _, setResultFlag_onlyChanges s x _ _⟩⟩⟩

/-! ### Shifts -/

theorem shiftOperand_of_vx {s : State} (h : s.params.shiftSrc = .vx) (x y : RegIdx) :
    s.shiftOperand x y = s.getV x := by rw [State.shiftOperand, State.shiftReg, h]

theorem shiftOperand_of_vy {s : State} (h : s.params.shiftSrc = .vy) (x y : RegIdx) :
    s.shiftOperand x y = s.getV y := by rw [State.shiftOperand, State.shiftReg, h]

theorem flagByte_getLsbD_toNat (b : Byte) (k : Nat) : (flagByte (b.getLsbD k)).toNat = b.toNat / 2 ^ k % 2 :=
  calc (flagByte (b.getLsbD k)).toNat = (b.toNat.testBit k).toNat := by
        rw [BitVec.testBit_toNat]; cases b.getLsbD k <;> rfl
    _ = b.toNat / 2 ^ k % 2 := Nat.toNat_testBit b.toNat k

theorem lowBit_toNat (b : Byte) : (flagByte (lowBit b)).toNat = b.toNat % 2 := by
  rw [lowBit, flagByte_getLsbD_toNat, Nat.pow_zero, Nat.div_one]

/-- Bit 7 is the topmost, so the quotient needs no reduction. -/
theorem highBit_toNat (b : Byte) : (flagByte (highBit b)).toNat = b.toNat / 128 := by
  rw [highBit, flagByte_getLsbD_toNat]
  have := b.isLt; omega

theorem shiftRight_one_toNat (b : Byte) : (b >>> 1).toNat = b.toNat / 2 := BitVec.toNat_ushiftRight b 1

theorem shiftLeft_one_toNat (b : Byte) : (b <<< 1).toNat = b.toNat * 2 % 256 := by
  rw [BitVec.toNat_shiftLeft, Nat.shiftLeft_eq]

/-- RSHIFT by its source operand, whichever register that is. -/
theorem exec_rshift (s : State) (x y : RegIdx) :
    ∃ t, exec (.rshift x y) s = .next t ∧ (t.getV VF).toNat = (s.shiftOperand x y).toNat % 2 ∧
      (x ≠ VF → (t.getV x).toNat = (s.shiftOperand x y).toNat / 2) ∧
      OnlyRegs (fun r => r = x ∨ r = VF) s t ∧ OnlyChanges [.regs] s t :=
  ⟨_, rfl, by rw [getV_VF_setResultFlag, lowBit_toNat],
    fun hx => by rw [getV_setResultFlag_of_ne s hx, shiftRight_one_toNat],
    setResultFlag_onlyRegs s x _ _, setResultFlag_onlyChanges s x _ _⟩

/-- LSHIFT by its source operand, whichever register that is. -/
theorem exec_lshift (s : State) (x y : RegIdx) :
    ∃ t, exec (.lshift x y) s = .next t ∧ (t.getV VF).toNat = (s.shiftOperand x y).toNat / 128 ∧
      (x ≠ VF → (t.getV x).toNat = (s.shiftOperand x y).toNat * 2 % 256) ∧
      OnlyRegs (fun r => r = x ∨ r = VF) s t ∧ OnlyChanges [.regs] s t :=
  ⟨_, rfl, by rw [getV_VF_setResultFlag, highBit_toNat],
    fun hx => by rw [getV_setResultFlag_of_ne s hx, shiftLeft_one_toNat],
    setResultFlag_onlyRegs s x _ _, setResultFlag_onlyChanges s x _ _⟩

/-- Settles O27: the source operand is V[x]. -/
theorem shiftsReadVxUnderVx : Obligations.ShiftsReadVxUnderVx :=
  ⟨⟨selects_rshift, fun s x y h => shiftOperand_of_vx h x y ▸ exec_rshift s x y⟩,
    ⟨selects_lshift, fun s x y h => shiftOperand_of_vx h x y ▸ exec_lshift s x y⟩⟩

/-- Settles O28: the source operand is V[y]. -/
theorem shiftsReadVyUnderVy : Obligations.ShiftsReadVyUnderVy :=
  ⟨fun s x y h => shiftOperand_of_vy h x y ▸ exec_rshift s x y,
    fun s x y h => shiftOperand_of_vy h x y ▸ exec_lshift s x y⟩

/-! ### RAND -/

theorem getV_maskDraw_self (s : State) (x : RegIdx) (nn r : Byte) : (s.maskDraw x nn r).getV x = r &&& nn :=
  s.getV_setV_self x _

/-- Settles O29: one `setV` of the masked draw, beside the draw counter. -/
theorem randMasksTheDraw : Obligations.RandMasksTheDraw := by
  refine ⟨selects_rand, fun s x nn => ⟨_, rfl, fun k => ?_, ?_, rfl, setV_onlyRegs s.countDraw x _,
    maskDraw_onlyChanges s x nn _⟩⟩
  · rw [getV_maskDraw_self, BitVec.getLsbD_and, State.nextDraw]
  · rintro rfl
    rw [getV_maskDraw_self]; exact BitVec.and_zero

end Sys2Proof.Machine
end

section
/-! SUPPORT. The data bytes at I, and the statements of 43_index_memory.md R86 and R88 to R90 and of 20_memory.md R39. -/

namespace Sys2Proof.Machine

/-- Settles O31: one `setI`, of the 16-bit sum. -/
theorem addIAddsModulo65536 : Obligations.AddIAddsModulo65536 :=
  ⟨selects_addI, fun s x =>
    ⟨_, rfl, by rw [State.setI_i, BitVec.toNat_add, zext16_toNat], setI_onlyChanges s _⟩⟩

/-! ### Data addresses -/

theorem eff_dataAddr_inj (s : State) {j k : Nat} (hj : j < 16) (hk : k < 16) :
    eff (s.dataAddr j) = eff (s.dataAddr k) ↔ j = k := State.eff_add_inj hj hk

theorem byteAt_congr (s : State) {a b : Nat} (h : eff a = eff b) : s.byteAt a = s.byteAt b :=
  congrArg s.mem.read h

theorem eff_succ_congr {a b : Nat} (h : eff a = eff b) : eff (a + 1) = eff (b + 1) := by
  simp only [eff, Config.memSize] at h ⊢; omega

theorem dataAddr_congr {s t : State} (h : t.i = s.i) (k : Nat) : t.dataAddr k = s.dataAddr k := by
  rw [State.dataAddr, h]; rfl

/-! ### BCD -/

theorem bcdHundreds_toNat (b : Byte) : (bcdHundreds b).toNat = b.toNat / 100 := by
  rw [bcdHundreds, BitVec.toNat_ofNat]
  have := b.isLt; omega

theorem bcdTens_toNat (b : Byte) : (bcdTens b).toNat = b.toNat / 10 % 10 := by
  rw [bcdTens, BitVec.toNat_ofNat]
  have := b.isLt; omega

theorem bcdUnits_toNat (b : Byte) : (bcdUnits b).toNat = b.toNat % 10 := by
  rw [bcdUnits, BitVec.toNat_ofNat]
  have := b.isLt; omega

/-- Everything BCD's three writes do to memory. -/
theorem byteAt_storeDigits (s : State) (h : s.mem.wf = true) (b : Byte) (a : Nat) :
    (s.storeDigits b).byteAt a =
      if eff a = eff (s.dataAddr 2) then bcdUnits b
      else if eff a = eff (s.dataAddr 1) then bcdTens b
      else if eff a = eff (s.dataAddr 0) then bcdHundreds b else s.byteAt a := by
  have h0 := s.wf_setDataByte h 0 (bcdHundreds b)
  have h1 := State.wf_setDataByte _ h0 1 (bcdTens b)
  rw [State.storeDigits, State.byteAt_setDataByte _ h1, State.byteAt_setDataByte _ h0, s.byteAt_setDataByte h]
  rfl

/-- Settles O32: the three data addresses are distinct, so each holds its own digit. -/
theorem bcdStoresThreeDigits : Obligations.BcdStoresThreeDigits := by
  refine ⟨selects_bcd, fun s x hwf => ⟨s.storeDigits (s.getV x), rfl, ?_, ?_, ?_, fun a ha => ?_,
    storeDigits_onlyChanges s _⟩⟩
  · simp [byteAt_storeDigits s hwf, eff_dataAddr_inj, bcdHundreds_toNat]
  · simp [byteAt_storeDigits s hwf, eff_dataAddr_inj, bcdTens_toNat]
  · rw [byteAt_storeDigits s hwf, if_pos rfl, bcdUnits_toNat]
  · rw [byteAt_storeDigits s hwf, if_neg (ha 2 (by decide)), if_neg (ha 1 (by decide)), if_neg (ha 0 (by decide))]

/-! ### STORE and LOAD -/

theorem byteAt_storeRegs_data (s : State) (h : s.mem.wf = true) {x k : RegIdx} (hk : k ≤ x) :
    (s.storeRegs (x.val + 1)).byteAt (s.dataAddr k.val) = s.getV k :=
  (s.byteAt_storeRegs h x.isLt).1 k (Nat.lt_succ_of_le hk)

/-- Settles O33: by what STORE's loop does to memory. -/
theorem storeWritesRegistersToMemory : Obligations.StoreWritesRegistersToMemory :=
  ⟨selects_store, fun s x hwf => ⟨_, rfl, fun _ => byteAt_storeRegs_data s hwf,
    (s.byteAt_storeRegs hwf x.isLt).2, storeRegs_onlyChanges s _⟩⟩

theorem getV_loadRegs_of_le (s : State) {x k : RegIdx} (hk : k ≤ x) :
    (s.loadRegs (x.val + 1)).getV k = s.byteAt (s.dataAddr k.val) := by
  rw [s.getV_loadRegs (show x.val + 1 ≤ 16 from x.isLt), if_pos (Nat.lt_succ_of_le hk)]; rfl

/-- Settles O34: by what LOAD's loop does to the registers. -/
theorem loadReadsRegistersFromMemory : Obligations.LoadReadsRegistersFromMemory :=
  ⟨selects_load, fun s x => ⟨_, rfl, fun _ => getV_loadRegs_of_le s, loadRegs_onlyRegs s x, loadRegs_onlyChanges s _⟩⟩

/-- Settles O35: each register comes from the data byte that STORE wrote it to. -/
theorem loadAfterStoreRestores : Obligations.LoadAfterStoreRestores := by
  intro s t u x hwf hstore hmem hi
  cases hstore
  have hui : SamePart s u .i := ((storeRegs_onlyChanges s (x.val + 1)).samePart (by decide)).trans hi
  refine ⟨_, rfl, fun k hk => ?_⟩
  calc (u.loadRegs (x.val + 1)).getV k = u.byteAt (u.dataAddr k.val) := getV_loadRegs_of_le u hk
    _ = u.byteAt (s.dataAddr k.val) := by rw [dataAddr_congr hui]
    _ = (s.storeRegs (x.val + 1)).byteAt (s.dataAddr k.val) := hmem _
    _ = s.getV k := byteAt_storeRegs_data s hwf hk

/-- Settles O36: the fetch reads bytes k and k + 1 of those that STORE wrote. -/
theorem fetchSeesStoredBytes : Obligations.FetchSeesStoredBytes := by
  intro s t x k hkx hwf hstore hpc
  cases hstore
  rw [State.fetch, State.wordAt, byteAt_congr _ hpc, byteAt_congr _ (eff_succ_congr hpc),
    byteAt_storeRegs_data s hwf (show k.val ≤ x.val by omega)]
  congr 1
  have hnext : (⟨k.val + 1, by have := x.isLt; omega⟩ : RegIdx) ≤ x := hkx
  exact byteAt_storeRegs_data s hwf hnext

end Sys2Proof.Machine
end

section
/-! SUPPORT. What DRAW does in the terms of `SpriteCovers`, the order of the display, and the statements of 44_display.md R92
and 40_tick_driver.md R55. -/

namespace Sys2Proof.Machine

/-! ### The sprite -/

/-- The loops' own notion of a covered pixel is that of the statements. -/
theorem spriteSet_dataByte_iff (s : State) (x0 y0 : Byte) (n : Nat) (u : Fin 64) (v : Fin 32) :
    SpriteSet x0 y0 s.dataByte n u v ↔ SpriteCovers s x0 y0 n u v := by
  constructor
  · rintro ⟨r, hr, hv, c, hc, hu, hbit⟩
    exact ⟨r, c, hr, hc, (eq_drawColumn x0 c u).mp hu, (eq_drawLine y0 r v).mp hv, hbit⟩
  · rintro ⟨r, c, hr, hc, hu, hv, hbit⟩
    exact ⟨r, hr, (eq_drawLine y0 r v).mpr hv, c, hc, (eq_drawColumn x0 c u).mpr hu, hbit⟩

/-- The sprite is read from memory at I, so it stays where both do. -/
theorem spriteCovers_congr {s t : State} (hmem : SamePart s t .mem) (hi : t.i = s.i) (x0 y0 : Byte) (n : Nat)
    (u : Fin 64) (v : Fin 32) : SpriteCovers t x0 y0 n u v ↔ SpriteCovers s x0 y0 n u v := by
  have hbyte (a : Nat) : t.byteAt a = s.byteAt a := hmem a
  simp only [SpriteCovers, hi, hbyte]

/-- Everything the drawing of a sprite does: the pixels it covers are toggled, the others kept, and it hits exactly when one
of them was lit. -/
theorem blit_spec (s : State) (x0 y0 : Byte) {n : Nat} (hn : n ≤ 32) :
    (∀ u v, SpriteCovers s x0 y0 n u v → Framebuffer.get (s.blit x0 y0 n).fb u v = !s.pixel u v) ∧
    (∀ u v, ¬ SpriteCovers s x0 y0 n u v → Framebuffer.get (s.blit x0 y0 n).fb u v = s.pixel u v) ∧
    ((s.blit x0 y0 n).hit = true ↔ ∃ u v, SpriteCovers s x0 y0 n u v ∧ s.pixel u v = true) := by
  have h := rows_spec { fb := s.fb, hit := false } x0 y0 s.dataByte n hn
  simp only [spriteSet_dataByte_iff, Bool.false_eq_true, false_or] at h
  exact h

theorem getV_VF_setFlag (s : State) (c : Bool) : (s.setFlag c).getV VF = flagByte c := s.getV_setV_self VF _

/-- Settles O38: the drawing's pixels, then its hit as the flag. -/
theorem drawXorsTheSprite : Obligations.DrawXorsTheSprite := by
  refine ⟨selects_draw, fun s x y n => ?_⟩
  obtain ⟨hcovered, hkept, hhit⟩ := blit_spec s (s.getV x) (s.getV y) (show n.val ≤ 32 by omega)
  refine ⟨_, rfl, hcovered, hkept, fun hlit => ?_, fun hdark => ?_, setV_onlyRegs (s.setFb _) VF _,
    drawn_onlyChanges s _ _⟩
  · rw [getV_VF_setFlag, hhit.mpr hlit]; rfl
  · rw [getV_VF_setFlag, Bool.eq_false_iff.mpr (mt hhit.mp hdark)]; rfl

/-- Settles O39: the second DRAW covers the same pixels, toggles each back, and finds lit those that were off. -/
theorem drawingTwiceRestoresTheScreen : Obligations.DrawingTwiceRestoresTheScreen := by
  intro s t x y n hx hy hdraw
  obtain ⟨-, hspec⟩ := drawXorsTheSprite
  obtain ⟨t', ht', htoggled, hkept, -, -, hregs, hframe⟩ := hspec s x y n
  cases hdraw.symm.trans ht'
  obtain ⟨r, hr, htoggled', hkept', hlit, hdark, -, -⟩ := hspec t x y n
  have hvx : t.getV x = s.getV x := hregs x hx
  have hvy : t.getV y = s.getV y := hregs y hy
  have hi : SamePart s t .i := hframe.samePart (by decide)
  have hcovers (u : Fin 64) (v : Fin 32) : SpriteCovers t (s.getV x) (s.getV y) n.val u v ↔
      SpriteCovers s (s.getV x) (s.getV y) n.val u v :=
    spriteCovers_congr (hframe.samePart (by decide)) hi _ _ _ u v
  simp only [hvx, hvy, hcovers] at htoggled' hkept' hlit hdark
  refine ⟨r, hr, Framebuffer.ext_get fun u v => ?_, ?_⟩
  · by_cases h : SpriteCovers s (s.getV x) (s.getV y) n.val u v
    · calc r.pixel u v = !t.pixel u v := htoggled' u v h
        _ = s.pixel u v := by rw [htoggled u v h, Bool.not_not]
    · exact (hkept' u v h).trans (hkept u v h)
  · constructor
    · intro hvf
      by_contra hnone
      have hzero : r.getV VF = 0 := hdark fun ⟨u, v, hc, hp⟩ =>
        hnone ⟨u, v, hc, by rw [htoggled u v hc] at hp; simpa using hp⟩
      rw [hzero] at hvf
      exact absurd hvf (by decide)
    · rintro ⟨u, v, hc, hp⟩
      exact hlit ⟨u, v, hc, by rw [htoggled u v hc, hp]; rfl⟩

/-! ### The display -/

theorem display_eq_flatten (s : State) : s.display = s.fb.flatten.toList := by
  simp only [State.display, Vector.flatten, List.flatMap_def, Vector.toList_mk, Array.toList_flatten, Array.toList_map,
    List.map_map]
  rfl

/-- Entry `v * 64 + u` is entry u of row v. -/
theorem display_getElem? (s : State) (u : Fin 64) (v : Fin 32) :
    s.display[v.val * 64 + u.val]? = some (s.pixel u v) := by
  have hlt : v.val * 64 + u.val < 32 * 64 := by omega
  have hrow : (v.val * 64 + u.val) / 64 = v.val := by omega
  have hcol : (v.val * 64 + u.val) % 64 = u.val := by omega
  rw [display_eq_flatten, Vector.getElem?_toList, Vector.getElem?_eq_getElem hlt, Vector.getElem_flatten]
  simp only [hrow, hcol]
  rfl

/-- Settles O50: the display is the rows one after another, 64 pixels each. -/
theorem displayIsRowMajor : Obligations.DisplayIsRowMajor :=
  fun s => ⟨s.display, rfl, display_length s, display_getElem? s⟩

end Sys2Proof.Machine
end

section
/-! SUPPORT. The keypad and timer instructions, runs of `tick_frame`, a whole key wait, and the statements of
45_keypad_timers.md R94 to R99. -/

namespace Sys2Proof.Machine

/-! ### Key skips -/

theorem keyOperand_eq (s : State) {x : RegIdx} {k : KeyIdx} (hk : k.val = (s.getV x).toNat % 16) :
    s.keyOperand x = s.getKey k := by
  have hnibble : lowNibble (s.getV x) = k := Fin.ext ((lowNibble_val _).trans hk.symm)
  rw [State.keyOperand, hnibble]

theorem skipIf_pc_toNat_of_true (s : State) {c : Bool} (h : c = true) :
    (s.skipIf c).pc.toNat = (s.pc.toNat + 2) % 65536 := by
  rw [h]; exact advance_pc_toNat s

theorem skipIf_pc_of_false (s : State) {c : Bool} (h : c = false) : (s.skipIf c).pc = s.pc := by
  rw [h]; rfl

/-- Settles O40: one `skipIf` each, of the key that the low nibble names, or of its negation. -/
theorem keySkipsReadTheKeypad : Obligations.KeySkipsReadTheKeypad := by
  refine ⟨⟨selects_skipKey, fun s x k hk => ⟨_, rfl, skipIf_onlyChanges s _, ?_, ?_⟩⟩,
    ⟨selects_skipNkey, fun s x k hk => ⟨_, rfl, skipIf_onlyChanges s _, ?_, ?_⟩⟩⟩ <;> rw [keyOperand_eq s hk]
  · exact skipIf_pc_toNat_of_true s
  · exact skipIf_pc_of_false s
  · exact fun h => skipIf_pc_toNat_of_true s (by rw [h]; rfl)
  · exact fun h => skipIf_pc_of_false s (by rw [h]; rfl)

/-! ### Timers -/

/-- Settles O41: one register write, and one write of ST, which `sound_active` reads. -/
theorem getDtAndSetStCopy : Obligations.GetDtAndSetStCopy :=
  ⟨⟨selects_getDt, fun s x => ⟨_, rfl, s.getV_setV_self x _, setV_onlyRegs s x _, setV_onlyChanges s x _⟩⟩,
    ⟨selects_setSt, fun s x => ⟨s.setSt (s.getV x), rfl, rfl, decide_eq_true_iff, setSt_onlyChanges s _⟩⟩⟩

theorem runCommands_succ_tickFrame (k : Nat) (s : State) :
    (runCommands (List.replicate (k + 1) .tickFrame) s).1 =
      (runCommands (List.replicate k .tickFrame) s.tickFrame).1 := rfl

theorem dt_after_tickFrames (k : Nat) (s : State) :
    (runCommands (List.replicate k .tickFrame) s).1.dt.toNat = s.dt.toNat - k := by
  induction k generalizing s with
  | zero => rfl
  | succ k ih => rw [runCommands_succ_tickFrame, ih, tickFrame_dt, countDown_toNat, Nat.sub_sub, Nat.add_comm]

theorem tickFrames_onlyChanges (k : Nat) (s : State) :
    OnlyChanges [.dt, .st] s (runCommands (List.replicate k .tickFrame) s).1 := by
  induction k generalizing s with
  | zero => exact (OnlyChanges.refl s).mono (List.nil_subset _)
  | succ k ih =>
    rw [runCommands_succ_tickFrame]
    exact ((tickFrame_onlyChanges s).trans (ih s.tickFrame)).mono (by decide)

/-- Settles O42: SET_DT is one write of DT, and k frames take k off it. -/
theorem setDtThenFramesCountDown : Obligations.SetDtThenFramesCountDown :=
  ⟨selects_setDt, fun s x => ⟨s.setDt (s.getV x), rfl, rfl, setDt_onlyChanges s _,
    fun k => ⟨dt_after_tickFrames k _, tickFrames_onlyChanges k _⟩⟩⟩

/-! ### WAIT_KEY -/

theorem getV_resolveWait_toNat (s : State) (x : RegIdx) (k : KeyIdx) :
    ((s.resolveWait x k).getV x).toNat = k.val :=
  (congrArg BitVec.toNat (s.getV_setV_self x (keyByte k))).trans (keyByte_toNat k)

/-- Settles O43: the three answers of WAIT_KEY, by the state of the latch. -/
theorem waitKeyArmsWaitsAndResolves : Obligations.WaitKeyArmsWaitsAndResolves := by
  refine ⟨selects_waitKey, fun s x k hactive hkey => ?_, fun s x hactive hkey => ?_, fun s x hidle => ?_⟩
  · exact ⟨_, exec_waitKey_of_recorded s x hactive hkey, getV_resolveWait_toNat s x k, rfl, rfl, rfl,
      resolveWait_onlyRegs s x k, resolveWait_onlyChanges s x k⟩
  · exact ⟨_, exec_waitKey_of_waiting s x hactive hkey, rfl, retreat_onlyChanges s⟩
  · exact ⟨_, exec_waitKey_of_idle s x hidle, rfl, rfl, rfl, rfl, armed_onlyChanges s x⟩

/-! ### A whole key wait -/

/-- The first tick arms the latch in place; the others leave the armed state. -/
theorem ticks_from_waitKey {s : State} {x : RegIdx} (hdec : decodeWord s.fetch = some (.waitKey x))
    (hidle : s.waitActive = false) (n : Nat) :
    runCommands (List.replicate (n + 1) .tickCpu) s = (s.armLatch x, List.replicate (n + 1) .ok) := by
  have harm : step s = .next (s.armLatch x) :=
    calc step s = .next (s.advance.armLatch x).retreat :=
          (step_of_decode hdec).trans (exec_waitKey_of_idle s.advance x hidle)
      _ = .next (s.armLatch x) := by rw [armLatch_advance_retreat]
  have hwait : step (s.armLatch x) = .next (s.armLatch x) := step_of_waiting hdec rfl rfl
  simp only [List.replicate_succ, runCommands, tickCpu_of_next harm,
    runCommands_replicate_of_fixed (tickCpu_of_next hwait)]

/-- The state in which a WAIT_KEY for x that key k resolved leaves the machine. -/
def State.afterWait (s : State) (x : RegIdx) (k : KeyIdx) : State :=
  ((s.armLatch x).pressKey k true).advance.resolveWait x k

/-- A press that is recorded lets the next tick resolve the wait. -/
theorem step_after_press {s : State} {x : RegIdx} {k : KeyIdx} (hdec : decodeWord s.fetch = some (.waitKey x))
    (hup : s.getKey k = false) : step ((s.armLatch x).pressKey k true) = .next (s.afterWait x k) := by
  have hframe := pressKey_onlyChanges (s.armLatch x) k true
  have hmem : SamePart (s.armLatch x) ((s.armLatch x).pressKey k true) .mem := hframe.samePart (by decide)
  have hpc : SamePart (s.armLatch x) ((s.armLatch x).pressKey k true) .pc := hframe.samePart (by decide)
  have hfetch : ((s.armLatch x).pressKey k true).fetch = s.fetch := fetch_congr hmem hpc
  have hactive : ((s.armLatch x).pressKey k true).waitActive = true := pressKey_waitActive _ k true
  have hkey : ((s.armLatch x).pressKey k true).waitKey = some k :=
    pressKey_waitKey_of_recorded _ k true ⟨rfl, hup, rfl, rfl⟩
  exact (step_of_decode (hfetch ▸ hdec)).trans
    (exec_waitKey_of_recorded ((s.armLatch x).pressKey k true).advance x hactive hkey)

theorem run_of_wait {s : State} {x : RegIdx} {k : KeyIdx} (hdec : decodeWord s.fetch = some (.waitKey x))
    (hidle : s.waitActive = false) (hup : s.getKey k = false) (n : Nat) :
    runCommands (List.replicate (n + 1) .tickCpu ++ [.keypress (keyByte k) true, .tickCpu]) s =
      (s.afterWait x k, List.replicate (n + 1) .ok ++ [.none, .ok]) := by
  have hpress : command (.keypress (keyByte k) true) (s.armLatch x) = ((s.armLatch x).pressKey k true, .none) := by
    rw [command, keypress_keyByte]
  simp only [runCommands_append, ticks_from_waitKey hdec hidle, runCommands, hpress,
    tickCpu_of_next (step_after_press hdec hup)]

/-- Up to the press and the default advance, only the latch, the key and pc change. -/
theorem pressed_onlyChanges (s : State) (x : RegIdx) (k : KeyIdx) :
    OnlyChanges [.pc, .latch, .key] s ((s.armLatch x).pressKey k true).advance :=
  (((armLatch_onlyChanges s x).trans (pressKey_onlyChanges _ k true)).trans (advance_onlyChanges _)).mono (by decide)

theorem afterWait_onlyChanges (s : State) (x : RegIdx) (k : KeyIdx) :
    OnlyChanges [.regs, .pc, .latch, .key] s (s.afterWait x k) :=
  ((pressed_onlyChanges s x k).trans (resolveWait_onlyChanges _ x k)).mono (by decide)

theorem afterWait_onlyRegs (s : State) (x : RegIdx) (k : KeyIdx) : OnlyRegs (· = x) s (s.afterWait x k) := by
  intro r hr
  have hpressed : SamePart s ((s.armLatch x).pressKey k true).advance .regs :=
    (pressed_onlyChanges s x k).samePart (by decide)
  exact (resolveWait_onlyRegs _ x k r hr).trans (hpressed r)

theorem afterWait_pc (s : State) (x : RegIdx) (k : KeyIdx) : (s.afterWait x k).pc = s.pc + 2 := by
  have hpc : SamePart (s.armLatch x) ((s.armLatch x).pressKey k true) .pc :=
    (pressKey_onlyChanges _ k true).samePart (by decide)
  exact congrArg (· + 2) hpc

theorem afterWait_getKey (s : State) (x : RegIdx) (k : KeyIdx) : (s.afterWait x k).getKey k = true :=
  (getKey_pressKey (s.armLatch x) k true k).trans (if_pos rfl)

/-- Settles O44: the run's final state and its answers are those of `run_of_wait`. -/
theorem keyPressEndsTheWait : Obligations.KeyPressEndsTheWait := by
  intro s x k n hdec hidle hup
  have hrun := run_of_wait hdec hidle hup n
  refine ⟨by rw [ticks_from_waitKey hdec hidle]; rfl, s.afterWait x k, by rw [hrun], getV_resolveWait_toNat _ x k,
    afterWait_pc s x k, rfl, rfl, afterWait_getKey s x k, afterWait_onlyRegs s x k, afterWait_onlyChanges s x k, ?_⟩
  intro r hr e
  rw [hrun, List.mem_append, List.mem_replicate] at hr
  rcases hr with ⟨-, rfl⟩ | hr
  · simp
  · simp only [List.mem_cons, List.not_mem_nil, or_false] at hr
    rcases hr with rfl | rfl <;> simp

end Sys2Proof.Machine
end

section
/-! SUPPORT. What `load` and `reset` do to memory, and the statements of 40_tick_driver.md R53, 70_reset_and_hazards.md R117
and 10_state.md R26. -/

namespace Sys2Proof.Machine

/-! ### `load` -/

theorem rejectsRom_iff (s : State) (rom : List Byte) :
    s.rejectsRom rom = true ↔ s.params.loadPolicy = .reject ∧ 3584 < rom.length := by
  simp [State.rejectsRom, romFits, Config.maxRom, Config.memSize, Config.progBase]

theorem loadRom_of_rejected {s : State} {rom : List Byte} (h : s.rejectsRom rom = true) :
    command (.load rom) s = (s, .err .romTooLarge) := by
  rw [command, State.loadRom, if_pos h]; rfl

theorem loadRom_of_not_rejected {s : State} {rom : List Byte} (h : ¬ s.rejectsRom rom = true) :
    command (.load rom) s = (s.copyRom rom, .ok) := by
  rw [command, State.loadRom, if_neg h]; rfl

/-- Everything the copy does to memory: the copied part of the ROM lies at 0x200, and the other bytes are kept. -/
theorem byteAt_copyRom (s : State) (h : s.mem.wf = true) (rom : List Byte) {a : Nat} (ha : a < 4096) :
    (s.copyRom rom).byteAt a =
      if 0x200 ≤ a ∧ a < 0x200 + min 3584 rom.length then (rom.take 3584).getD (a - 0x200) 0 else s.byteAt a := by
  have hfits : 0x200 + (rom.take 3584).length ≤ Config.memSize := by
    have := List.length_take_le 3584 rom
    simp only [Config.memSize]; omega
  have hread := Memory.read_writeBytes h 0x200 (rom.take 3584) hfits (eff a)
  rw [List.length_take, eff_of_lt ha] at hread
  rw [State.byteAt, State.byteAt, eff_of_lt ha]
  exact hread

theorem copyRom_onlyChanges (s : State) (rom : List Byte) : OnlyChanges [.mem, .latch] s (s.copyRom rom) :=
  (setMem_onlyChanges s _).trans (clearLatch_onlyChanges _)

/-- Settles O47: whether the ROM is rejected, and what the copy does to memory. -/
theorem loadCopiesTheRom : Obligations.LoadCopiesTheRom := by
  refine ⟨fun s rom hwf haccepted => ?_, fun s rom hpolicy hlong => ?_⟩
  · have hnot : ¬ s.rejectsRom rom = true := by
      rw [rejectsRom_iff]
      rintro ⟨hpolicy, hlong⟩
      rcases haccepted with htruncate | hshort
      · cases hpolicy.symm.trans htruncate
      · omega
    refine ⟨s.copyRom rom, loadRom_of_not_rejected hnot, fun k hk hk' => ?_, fun a ha hout => ?_, rfl, rfl, rfl,
      copyRom_onlyChanges s rom⟩
    · rw [byteAt_copyRom s hwf rom (by omega), if_pos (by omega), Nat.add_sub_cancel_left, List.getD_eq_getElem?_getD,
        List.getElem?_take_of_lt hk', List.getElem?_eq_getElem hk, Option.getD_some]
    · rw [byteAt_copyRom s hwf rom ha, if_neg (by omega)]
  · exact loadRom_of_rejected ((rejectsRom_iff s rom).mpr ⟨hpolicy, hlong⟩)

/-! ### `reset` -/

theorem resetByte_of_ge {a : Nat} (h : 80 ≤ a) : Memory.resetByte a = 0 :=
  List.getD_eq_default _ _ h

/-- Memory after `reset`: the block's FONT, and zero elsewhere. -/
theorem byteAt_resetCommand (s : State) {a : Nat} (ha : a < 4096) :
    s.resetCommand.byteAt a = if h : a < 80 then s.params.font[a] else 0 := by
  have hread : s.resetCommand.byteAt a = _ :=
    Memory.read_writeBytes (show Memory.wf [] = true from rfl) Config.fontBase s.params.font.toList (by simp [Config.memSize]) (eff a)
  rw [hread, eff_of_lt ha]
  simp only [Vector.length_toList, Config.fontBase, Nat.zero_le, true_and, Nat.zero_add, Nat.sub_zero]
  by_cases h : a < 80
  · rw [if_pos h, dif_pos h, List.getD_eq_getElem _ _ (by simpa using h)]; simp
  · rw [if_neg h, dif_neg h]; exact resetByte_of_ge (Nat.not_lt.mp h)

theorem reset_getV (r : RegIdx) : State.reset.getV r = 0 := Vector.getElem_replicate r.isLt

theorem reset_getKey (k : KeyIdx) : State.reset.getKey k = false := Vector.getElem_replicate k.isLt

theorem reset_pixel (u : Fin 64) (v : Fin 32) : State.reset.pixel u v = false := Framebuffer.get_blank u v

/-- Settles O48: every field is that of `State.reset` but memory, the settings and the draw counter, and those that the
second `reset` reads are the ones the first keeps. -/
theorem resetCommandSetsEveryField : Obligations.ResetCommandSetsEveryField := fun s =>
  ⟨s.resetCommand, rfl,
    fun a ha => by rw [byteAt_resetCommand s (by omega), dif_pos ha],
    fun a hlo hhi => by rw [byteAt_resetCommand s hhi, dif_neg (Nat.not_lt.mpr hlo)],
    reset_getV, rfl, rfl, fun _ hk => Vector.getElem_replicate hk, rfl, rfl, rfl, reset_pixel, reset_getKey,
    rfl, rfl, rfl, rfl, rfl, rfl⟩

/-- The spec's FONT is what an unlisted address reads as, so writing it lists nothing. -/
theorem afterReset_font : Memory.afterReset Config.font = [] := by decide

theorem resetCommand_reset : State.reset.resetCommand = State.reset :=
  congrArg State.reset.setMem afterReset_font

/-- Settles O49: the fields as defined, the bytes evaluated. -/
theorem resetStateHoldsTheResetValues : Obligations.ResetStateHoldsTheResetValues :=
  ⟨reset_getV, rfl, rfl, rfl, rfl, rfl, rfl, reset_pixel, reset_getKey, rfl, rfl, rfl, rfl, rfl, rfl, by decide,
    resetCommand_reset⟩

end Sys2Proof.Machine
end
